-- ==== Sys2Proof/Word.lean ====
section
/-! DEFINITION. The words of the CW2240: 8-bit link characters, 16-bit samples, sample pairs, and the two zones. -/

namespace Sys2Proof

/-- One link character (09 R143). -/
abbrev Byte := BitVec 8

/-- One channel's sample: a signed 16-bit whole number (00 "Units and conventions"). -/
abbrev Sample := BitVec 16

/-- One left and one right sample (00 "Units and conventions"). -/
structure SamplePair where
  left  : Sample
  right : Sample
  deriving DecidableEq, Repr

/-- The silent pair, zero in both channels (05 R84). -/
def SamplePair.zero : SamplePair := ⟨0#16, 0#16⟩

/-- The two listening zones: A (front) and B (rear). -/
inductive Zone where
  | a
  | b
  deriving DecidableEq, Repr

/-- The other zone: "lane X and the other lane Y" (00 "Zones"). -/
def Zone.other : Zone → Zone
  | .a => .b
  | .b => .a

/-- A value held once per zone. -/
structure PerZone (α : Type) where
  a : α
  b : α
  deriving DecidableEq, Repr

/-- The value of zone `z`. -/
def PerZone.get {α : Type} (p : PerZone α) : Zone → α
  | .a => p.a
  | .b => p.b

/-- The same values with zone `z`'s replaced. -/
def PerZone.set {α : Type} (p : PerZone α) (z : Zone) (x : α) : PerZone α :=
  match z with
  | .a => { p with a := x }
  | .b => { p with b := x }

end Sys2Proof
end

