-- ==== Sys2Proof/Syntax.lean ====
section
/-! DEFINITION. The commands of the block: one constructor of `Instr` for each row of spec/opcode_table.json. -/

namespace Sys2Proof

/-- One flagged run as a SECTOR frame carries it: its start pair and its length (01 R1, 09 R145). -/
structure FlagRun where
  start : Nat
  len   : Nat
  deriving DecidableEq, Repr

/-- A flag list: flagged runs, or WHOLE (01 R1). -/
inductive FlagList where
  | runs (rs : List FlagRun)
  | whole
  deriving DecidableEq, Repr

/-- A SECTOR frame as INP hands it on (09 R145, R149). -/
structure SectorFrame where
  /-- the run the sector was read for; 16 to 255 are always stale -/
  runId       : Byte
  /-- 0 to 359,999, or absent -/
  readAddress : Option Nat
  /-- 0 to 15 -/
  quality     : Nat
  /-- at most eight runs, or WHOLE -/
  flags       : FlagList
  /-- 588 pairs in play order -/
  pairs       : List SamplePair
  deriving DecidableEq, Repr

/-- The ten row fields of POLICY LOAD as received, in the order of the repair policy table (04 R78, 09 R145). -/
structure PolicyFields where
  retry      : Byte
  settle     : Byte
  overlap    : Byte
  speed      : Byte
  window     : Byte
  mismatches : Byte
  tolerance  : Byte
  lmax       : Byte
  rewind     : Byte
  gap        : Byte
  deriving DecidableEq, Repr

/-- The commands. A control command's `len` is the payload length of its CONTROL frame as received (10 R157 tests
it); its other operands are the frame's fields in the order of 09 R145. LOG 1. -/
inductive Instr where
  /-- POWER_ON (11 R166) -/
  | powerOn
  /-- LINE_BREAK (09 R150) -/
  | lineBreak
  /-- LINE_IDLE (09 R147) -/
  | lineIdle
  /-- BAD_STOP_BIT (09 R148) -/
  | badStopBit
  /-- HEADER_TEST_FAILED (09 R147): a frame of this kind character fails a header test -/
  | headerTestFailed (kind : Byte)
  /-- CHECK_ERROR (09 R148): an assembled frame of this kind character has a check that differs -/
  | checkError (kind : Byte)
  /-- UNKNOWN_KIND_FRAME (09 R148): a frame of another kind has ended with an equal check -/
  | unknownKindFrame (kind : Byte)
  /-- SECTOR (02 R26) -/
  | sector (f : SectorFrame)
  /-- STALL_TIMER_EXPIRY (02 R34) -/
  | stallTimerExpiry
  /-- SEARCH_DONE (03 R56) -/
  | searchDone
  /-- FRAME_DUE (05 R84) of a zone -/
  | frameDue (z : Zone)
  /-- LINE_FALLS_FREE (09 R153) -/
  | lineFallsFree
  /-- SHOCK (02 R38) -/
  | shock
  /-- FOCUS_LOST (08 R132) -/
  | focusLost
  /-- FOCUS_BACK (08 R132) -/
  | focusBack
  /-- TRAY_HOLD (08 R133) -/
  | trayHold
  /-- TRAY_RESUME (08 R134) -/
  | trayResume
  /-- DISC_OUT (08 R135) -/
  | discOut
  /-- DISC_IN (08 R136) -/
  | discIn
  /-- RUN_REFUSED (02 R35): the run id the mark carries -/
  | runRefused (id : Byte)
  /-- UNKNOWN_MARK (08 R131): an event character that names no listed event -/
  | unknownMark (event : Byte)
  /-- HOLD_TIMER_EXPIRY (08 R139) -/
  | holdTimerExpiry
  /-- CONTROL_FRAME (10 R155): the payload, command code first -/
  | controlFrame (payload : List Byte)
  /-- TABLE_OPEN (07 R122) -/
  | tableOpen (len : Nat)
  /-- TRACK_ENTRY (07 R123) -/
  | trackEntry (len : Nat) (track : Byte) (start : BitVec 24) (kind : Byte)
  /-- TABLE_CLOSE (07 R124) -/
  | tableClose (len : Nat) (count : Byte) (leadOut : BitVec 24)
  /-- POLICY_LOAD (04 R79) -/
  | policyLoad (len : Nat) (state : Byte) (row : PolicyFields)
  /-- ZONE_SETUP (06 R99) -/
  | zoneSetup (len : Nat) (zone enable priority : Byte) (target lowWater resume critical fade : BitVec 16)
  /-- MECHANISM_SETUP (02 R34, 08 R139) -/
  | mechanismSetup (len : Nat) (first next : BitVec 16) (hold : Byte)
  /-- REPORT_SETUP (10 R159) -/
  | reportSetup (len : Nat) (levels : List Byte) (threshold : Byte)
  /-- STATUS_QUERY (11 R164) -/
  | statusQuery (len : Nat)
  /-- MAP_QUERY (04 R81) -/
  | mapQuery (len : Nat) (start : Byte)
  /-- SOFT_RESET (10 R160) -/
  | softReset (len : Nat)
  /-- PLAY (06 R112) -/
  | play (len : Nat) (zone track : Byte) (offset : BitVec 24)
  /-- PAUSE (06 R113) -/
  | pause (len : Nat) (zone : Byte)
  /-- RESUME (06 R113) -/
  | resume (len : Nat) (zone : Byte)
  /-- STOP (06 R114) -/
  | stop (len : Nat) (zone : Byte)
  /-- NEXT (06 R116) -/
  | next (len : Nat) (zone : Byte)
  /-- PREVIOUS (06 R117) -/
  | previous (len : Nat) (zone : Byte)
  /-- LOCATE (06 R115): the offset is signed -/
  | locate (len : Nat) (zone : Byte) (offset : BitVec 24)
  /-- PROGRAM_APPEND (06 R110) -/
  | programAppend (len : Nat) (zone track : Byte)
  /-- PROGRAM_REMOVE (06 R110) -/
  | programRemove (len : Nat) (zone position : Byte)
  /-- PROGRAM_CLEAR (06 R110) -/
  | programClear (len : Nat) (zone : Byte)
  /-- REPEAT (06 R110) -/
  | repeatMode (len : Nat) (zone mode : Byte)
  /-- INTAKE_CHARACTER (09 R147): a character with a good stop bit -/
  | intakeCharacter (c : Byte)
  /-- UNKNOWN_COMMAND_CODE (10 R157): a command code in no row of the CONTROL layout -/
  | unknownCommandCode (len : Nat) (code : Byte)
  deriving DecidableEq, Repr

end Sys2Proof
end

