-- ==== Sys2Proof/WellFormed.lean ====
section
/-! DEFINITION. Which commands the two links can bring: the ranges of 09 R145 and R147 on the operands. A command that
is not well formed stands for no event; its meaning is total all the same (LOG 30). -/

namespace Sys2Proof

/-- A flagged run as INP hands it on: start 0 to 587, length at least 1 (09 R149). -/
def FlagRun.wf (r : FlagRun) : Bool := r.start ≤ 587 && 1 ≤ r.len && r.len ≤ 65535

/-- At most eight runs, each well formed, or WHOLE (09 R149). -/
def FlagList.wf : FlagList → Bool
  | .runs rs => rs.length ≤ 8 && rs.all FlagRun.wf
  | .whole   => true

/-- A SECTOR frame as INP hands it on (09 R145, R149). -/
def SectorFrame.wf (f : SectorFrame) : Bool :=
  (match f.readAddress with | some a => decide (a < 360000) | none => true)
    && f.quality ≤ 15 && f.flags.wf && f.pairs.length = 588

/-- The command codes of the CONTROL layout (09 R145). -/
def knownCode (c : Byte) : Bool :=
  decide (c.toNat ∈ [0x01, 0x02, 0x03, 0x04, 0x05, 0x06, 0x07, 0x08, 0x09, 0x0A,
    0x10, 0x11, 0x12, 0x13, 0x14, 0x15, 0x16, 0x20, 0x21, 0x22, 0x23])

/-- A payload of 1 to 32 characters (09 R145); where it is not the length of the command's code, CMI reads no field of
it (10 R157), so the fields are taken as zero. -/
def ctlWf (len right : Nat) (fieldsZero : Bool) : Bool :=
  1 ≤ len && len ≤ 32 && (len == right || fieldsZero)

/-- The ten POLICY LOAD fields all zero. -/
def PolicyFields.zero : PolicyFields := ⟨0#8, 0#8, 0#8, 0#8, 0#8, 0#8, 0#8, 0#8, 0#8, 0#8⟩

/-- Which commands can arrive (09 R145, R147). -/
def Instr.wf : Instr → Bool
  | .powerOn | .lineBreak | .lineIdle | .badStopBit => true
  | .headerTestFailed _ => true
  | .checkError _ => true
  | .unknownKindFrame k => k != 0x01#8 && k != 0x02#8 && k != 0x03#8
  | .sector f => f.wf
  | .stallTimerExpiry | .searchDone | .frameDue _ | .lineFallsFree => true
  | .shock | .focusLost | .focusBack | .trayHold | .trayResume | .discOut | .discIn => true
  | .runRefused _ => true
  | .unknownMark e => e == 0#8 || 8 < e.toNat
  | .holdTimerExpiry => true
  | .controlFrame p => 1 ≤ p.length && p.length ≤ 32
  | .tableOpen len => ctlWf len 1 true
  | .trackEntry len t s k => ctlWf len 6 (t == 0#8 && s == 0#24 && k == 0#8)
  | .tableClose len c l => ctlWf len 5 (c == 0#8 && l == 0#24)
  | .policyLoad len st row => ctlWf len 12 (st == 0#8 && row == PolicyFields.zero)
  | .zoneSetup len z e p t lw r c f =>
    ctlWf len 14 (z == 0#8 && e == 0#8 && p == 0#8 && t == 0#16 && lw == 0#16 && r == 0#16 && c == 0#16 && f == 0#16)
  | .mechanismSetup len f n h => ctlWf len 6 (f == 0#16 && n == 0#16 && h == 0#8)
  | .reportSetup len ls t =>
    if len = 17 then decide (ls.length = 15) else ctlWf len 17 (ls == [] && t == 0#8)
  | .statusQuery len => ctlWf len 1 true
  | .mapQuery len i => ctlWf len 2 (i == 0#8)
  | .softReset len => ctlWf len 1 true
  | .play len z t o => ctlWf len 6 (z == 0#8 && t == 0#8 && o == 0#24)
  | .pause len z => ctlWf len 2 (z == 0#8)
  | .resume len z => ctlWf len 2 (z == 0#8)
  | .stop len z => ctlWf len 2 (z == 0#8)
  | .next len z => ctlWf len 2 (z == 0#8)
  | .previous len z => ctlWf len 2 (z == 0#8)
  | .locate len z o => ctlWf len 5 (z == 0#8 && o == 0#24)
  | .programAppend len z t => ctlWf len 3 (z == 0#8 && t == 0#8)
  | .programRemove len z p => ctlWf len 3 (z == 0#8 && p == 0#8)
  | .programClear len z => ctlWf len 2 (z == 0#8)
  | .repeatMode len z m => ctlWf len 3 (z == 0#8 && m == 0#8)
  | .intakeCharacter _ => true
  | .unknownCommandCode len c => 1 ≤ len && len ≤ 32 && !knownCode c

end Sys2Proof
end

