-- ==== Sys2Proof/Decode.lean ====
section
/-! DEFINITION. Reading what the intake link carries: the check, the CONTROL and SECTOR payloads (09 R144, R145), and
their writing, from the same tables. The opcode table gives no row any bits, so no numeral word spells a command. -/

namespace Sys2Proof

/-- A number of several characters, high character first (09 R143). -/
def beNat (bs : List Byte) : Nat := bs.foldl (fun n b => n * 256 + b.toNat) 0

/-- The `k` characters of a number, high character first (09 R143). -/
def beBytes : Nat → Nat → List Byte
  | 0, _ => []
  | k + 1, n => BitVec.ofNat 8 (n / 256 ^ k) :: beBytes k n

/-- A field of two characters. -/
def word16 (h l : Byte) : BitVec 16 := h ++ l

/-- A field of three characters. -/
def word24 (h m l : Byte) : BitVec 24 := (h ++ m) ++ l

/-- The two characters of a field, high first. -/
def bytes16 (x : BitVec 16) : List Byte := [x.extractLsb' 8 8, x.extractLsb' 0 8]

/-- The three characters of a field, high first. -/
def bytes24 (x : BitVec 24) : List Byte := [x.extractLsb' 16 8, x.extractLsb' 8 8, x.extractLsb' 0 8]

/-- Step 3 of 09 R144 for one data bit. -/
def checkBit (reg : BitVec 16) (bit : Bool) : BitVec 16 :=
  if reg.msb != bit then (reg <<< 1) ^^^ 0x1021#16 else reg <<< 1

/-- Step 2 of 09 R144 for one character: its eight bits from the most significant down. -/
def checkByte (reg : BitVec 16) (c : Byte) : BitVec 16 :=
  [7, 6, 5, 4, 3, 2, 1, 0].foldl (fun r i => checkBit r (c.getLsbD i)) reg

/-- The check of 09 R144 over the kind, the length characters and the payload. -/
def checkOf (bs : List Byte) : BitVec 16 := bs.foldl checkByte 0xFFFF#16

/-- A frame's characters in the order they are sent: delimiter, kind, length, payload, check (09 R143). -/
def frameBytes (kind : Byte) (payload : List Byte) : List Byte :=
  let body := kind :: (beBytes 2 payload.length ++ payload)
  0xC3#8 :: (body ++ bytes16 (checkOf body))

/-- The command that CMI reads from a CONTROL payload with this code and these fields after it (09 R145). Where the
length is not the code's, no field is read and all are taken as zero (10 R157). -/
def readCommand (code : Byte) (fs : List Byte) : Instr :=
  let len := fs.length + 1
  match code.toNat with
  | 0x01 => .tableOpen len
  | 0x02 => match fs with
    | [t, s2, s1, s0, k] => .trackEntry len t (word24 s2 s1 s0) k
    | _ => .trackEntry len 0#8 0#24 0#8
  | 0x03 => match fs with
    | [c, l2, l1, l0] => .tableClose len c (word24 l2 l1 l0)
    | _ => .tableClose len 0#8 0#24
  | 0x04 => match fs with
    | [st, f1, f2, f3, f4, f5, f6, f7, f8, f9, f10] => .policyLoad len st ⟨f1, f2, f3, f4, f5, f6, f7, f8, f9, f10⟩
    | _ => .policyLoad len 0#8 PolicyFields.zero
  | 0x05 => match fs with
    | [z, e, p, t1, t0, l1, l0, r1, r0, c1, c0, f1, f0] =>
      .zoneSetup len z e p (word16 t1 t0) (word16 l1 l0) (word16 r1 r0) (word16 c1 c0) (word16 f1 f0)
    | _ => .zoneSetup len 0#8 0#8 0#8 0#16 0#16 0#16 0#16 0#16
  | 0x06 => match fs with
    | [f1, f0, n1, n0, h] => .mechanismSetup len (word16 f1 f0) (word16 n1 n0) h
    | _ => .mechanismSetup len 0#16 0#16 0#8
  | 0x07 => if fs.length = 16 then .reportSetup len (fs.take 15) (fs.getD 15 0#8) else .reportSetup len [] 0#8
  | 0x08 => .statusQuery len
  | 0x09 => match fs with
    | [i] => .mapQuery len i
    | _ => .mapQuery len 0#8
  | 0x0A => .softReset len
  | 0x10 => match fs with
    | [z, t, o2, o1, o0] => .play len z t (word24 o2 o1 o0)
    | _ => .play len 0#8 0#8 0#24
  | 0x11 => match fs with
    | [z] => .pause len z
    | _ => .pause len 0#8
  | 0x12 => match fs with
    | [z] => .resume len z
    | _ => .resume len 0#8
  | 0x13 => match fs with
    | [z] => .stop len z
    | _ => .stop len 0#8
  | 0x14 => match fs with
    | [z] => .next len z
    | _ => .next len 0#8
  | 0x15 => match fs with
    | [z] => .previous len z
    | _ => .previous len 0#8
  | 0x16 => match fs with
    | [z, o2, o1, o0] => .locate len z (word24 o2 o1 o0)
    | _ => .locate len 0#8 0#24
  | 0x20 => match fs with
    | [z, t] => .programAppend len z t
    | _ => .programAppend len 0#8 0#8
  | 0x21 => match fs with
    | [z, p] => .programRemove len z p
    | _ => .programRemove len 0#8 0#8
  | 0x22 => match fs with
    | [z] => .programClear len z
    | _ => .programClear len 0#8
  | 0x23 => match fs with
    | [z, m] => .repeatMode len z m
    | _ => .repeatMode len 0#8 0#8
  | _ => .unknownCommandCode len code

/-- The command a queued CONTROL payload names; none for an empty payload, which no frame carries (09 R147). -/
def decodeControl : List Byte → Option Instr
  | [] => none
  | code :: fs => some (readCommand code fs)

/-- The CONTROL payload of a command whose payload has the length of its code (09 R145); none for any other command. -/
def encodeControl : Instr → Option (List Byte)
  | .tableOpen _ => some [0x01#8]
  | .trackEntry _ t s k => some (0x02#8 :: t :: (bytes24 s ++ [k]))
  | .tableClose _ c l => some (0x03#8 :: c :: bytes24 l)
  | .policyLoad _ st r =>
    some [0x04#8, st, r.retry, r.settle, r.overlap, r.speed, r.window, r.mismatches, r.tolerance, r.lmax, r.rewind, r.gap]
  | .zoneSetup _ z e p t lw r c f =>
    some (0x05#8 :: z :: e :: p :: (bytes16 t ++ bytes16 lw ++ bytes16 r ++ bytes16 c ++ bytes16 f))
  | .mechanismSetup _ f n h => some (0x06#8 :: (bytes16 f ++ bytes16 n ++ [h]))
  | .reportSetup _ ls t => some (0x07#8 :: (ls ++ [t]))
  | .statusQuery _ => some [0x08#8]
  | .mapQuery _ i => some [0x09#8, i]
  | .softReset _ => some [0x0A#8]
  | .play _ z t o => some (0x10#8 :: z :: t :: bytes24 o)
  | .pause _ z => some [0x11#8, z]
  | .resume _ z => some [0x12#8, z]
  | .stop _ z => some [0x13#8, z]
  | .next _ z => some [0x14#8, z]
  | .previous _ z => some [0x15#8, z]
  | .locate _ z o => some (0x16#8 :: z :: bytes24 o)
  | .programAppend _ z t => some [0x20#8, z, t]
  | .programRemove _ z p => some [0x21#8, z, p]
  | .programClear _ z => some [0x22#8, z]
  | .repeatMode _ z m => some [0x23#8, z, m]
  | .unknownCommandCode len c => some (c :: List.replicate (len - 1) 0#8)
  | _ => none

/-- The payload length of a command's code (09 R145); for a code in no row the length as received. -/
def Instr.rightLen : Instr → Option (Nat × Nat)
  | .tableOpen len => some (len, 1)
  | .trackEntry len _ _ _ => some (len, 6)
  | .tableClose len _ _ => some (len, 5)
  | .policyLoad len _ _ => some (len, 12)
  | .zoneSetup len _ _ _ _ _ _ _ _ => some (len, 14)
  | .mechanismSetup len _ _ _ => some (len, 6)
  | .reportSetup len _ _ => some (len, 17)
  | .statusQuery len => some (len, 1)
  | .mapQuery len _ => some (len, 2)
  | .softReset len => some (len, 1)
  | .play len _ _ _ => some (len, 6)
  | .pause len _ => some (len, 2)
  | .resume len _ => some (len, 2)
  | .stop len _ => some (len, 2)
  | .next len _ => some (len, 2)
  | .previous len _ => some (len, 2)
  | .locate len _ _ => some (len, 5)
  | .programAppend len _ _ => some (len, 3)
  | .programRemove len _ _ => some (len, 3)
  | .programClear len _ => some (len, 2)
  | .repeatMode len _ _ => some (len, 3)
  | .unknownCommandCode len _ => some (len, len)
  | _ => none

/-- Flagged runs of a SECTOR payload, four characters each: start, then length (09 R145). -/
def readRuns : Nat → List Byte → List FlagRun
  | n + 1, a :: b :: c :: d :: rest => ⟨beNat [a, b], beNat [c, d]⟩ :: readRuns n rest
  | _, _ => []

/-- Sample pairs, four characters each: left, then right (09 R145). -/
def readPairs : List Byte → List SamplePair
  | a :: b :: c :: d :: rest => ⟨word16 a b, word16 c d⟩ :: readPairs rest
  | _ => []

/-- A run whose start is above 587 or whose length is 0 is left out (09 R145). -/
def runHandedOn (r : FlagRun) : Bool := r.start ≤ 587 && r.len != 0

/-- A SECTOR payload as INP hands it on (09 R145, R149). -/
def readSector (p : List Byte) : SectorFrame :=
  let count := (p.getD 5 0#8).toNat
  let runs := if count = 255 then 0 else count
  let addr := beNat ((p.drop 1).take 3)
  { runId := p.getD 0 0#8
    readAddress := if addr < 360000 then some addr else none
    quality := min 15 (p.getD 4 0#8).toNat
    flags := if count = 255 then .whole else .runs ((readRuns runs (p.drop 6)).filter runHandedOn)
    pairs := readPairs (p.drop (6 + 4 * runs)) }

/-- The characters of a flagged run. -/
def runBytes (r : FlagRun) : List Byte := beBytes 2 r.start ++ beBytes 2 r.len

/-- The characters of a pair: left, then right (09 R145, R146). -/
def pairBytes (p : SamplePair) : List Byte := bytes16 p.left ++ bytes16 p.right

/-- The SECTOR payload of a frame (09 R145). -/
def sectorPayload (f : SectorFrame) : List Byte :=
  let addr := beBytes 3 (f.readAddress.getD 0xFFFFFF)
  let flags := match f.flags with
    | .whole => [0xFF#8]
    | .runs rs => BitVec.ofNat 8 rs.length :: rs.flatMap runBytes
  [f.runId] ++ addr ++ [BitVec.ofNat 8 f.quality] ++ flags ++ f.pairs.flatMap pairBytes

/-- The table gives no row any bits, so no word spells a command (LOG 27). -/
def decodeTableWord (_nbits _w : Nat) : Option Instr := none

end Sys2Proof
end

