-- ==== Sys2Proof/Config.lean ====
section
/-! DEFINITION. What the manual leaves open: the one stream of free values of the model. -/

namespace Sys2Proof

/-- The free values: where the manual says that either of several outcomes may be taken and gives no rule for the
choice (09 R153, 11 R163, 01 R11), the model reads the next value of this stream, whose values nothing constrains.
`State.free` is the index of the next one. LOG 5, 6, 15. -/
opaque Config.freeChoice : Nat → Nat

end Sys2Proof
end

