-- ==== Sys2Proof/Machine/State.lean ====
section
/-! DEFINITION. The state of the CW2240 as plain data, block by block, and its value after power-on. -/

namespace Sys2Proof.Machine

/-! ## Outcomes -/

/-- No command of this block faults: every event in every state leaves a next state (INVENTORY, Faults). -/
inductive Fault where
  deriving DecidableEq, Repr

/-- Why the model gives a command no meaning. -/
inductive Refusal where
  /-- raised by an arm of `exec` whose command has no meaning yet; safe: the run stops. No arm raises it. -/
  | notModelled (mnemonic : String)
  deriving DecidableEq, Repr

/-! ## Intake Port -/

/-- INP's state (09 R147); in ASSEMBLING with the frame's characters after the delimiter, first received first. -/
inductive Inp where
  | waitIdle
  | hunting
  | assembling (chars : List Byte)
  deriving DecidableEq, Repr

/-! ## Sector Store -/

/-- A sector record (01 R1); the flag list is in the standard form once the record is filled. -/
structure Sector where
  readAddress : Option Nat
  flags       : FlagList
  pairs       : List SamplePair
  deriving DecidableEq, Repr

/-- The record of a slot that nothing has filled since power was applied. DESIGN CHOICE, LOG 8 (unsafe). -/
def Sector.blank : Sector := ⟨none, .runs [], List.replicate 588 SamplePair.zero⟩

/-- A slot: its sector record (01 R1) and its holder count (01 R2). -/
structure Slot where
  record  : Sector
  holders : Nat
  deriving DecidableEq, Repr

/-- The seam before a lane entry (01 R5). -/
inductive Seam where
  | none
  | track
  | verified
  | unverified
  | gap
  deriving DecidableEq, Repr

/-- A lane entry (01 R5). -/
structure Entry where
  slot    : Nat
  address : Nat
  track   : Nat
  /-- first pair offset -/
  offset  : Nat
  seam    : Seam
  deriving DecidableEq, Repr

/-- A lane's boundary (01 R4, R6): absent, pending, or the entry that refers to the slot. A slot is listed at most once
in a lane (R2), so the slot names the entry. LOG 31. -/
inductive Boundary where
  | absent
  | pending
  | entry (slot : Nat)
  deriving DecidableEq, Repr

/-- A lane (01 R4). -/
structure Lane where
  /-- in play order, head entry first -/
  entries     : List Entry
  /-- the next pair of the head entry, or none when the lane is empty -/
  playPos     : Option Nat
  tail        : Option Nat
  pendingSeam : Seam
  appending   : Option Nat
  boundary    : Boundary
  /-- the current-run count -/
  runCount    : Nat
  deriving DecidableEq, Repr

/-- An empty lane as 01 R19 gives it. -/
def Lane.empty : Lane := ⟨[], none, none, .none, none, .absent, 0⟩

structure Sst where
  /-- the 512 slots, by number -/
  slots : List Slot
  /-- the free list, oldest released first (01 R3) -/
  free  : List Nat
  lanes : PerZone Lane
  deriving DecidableEq, Repr

/-! ## Read Scheduler -/

inductive Speed where
  | x1
  | x2
  | x4
  deriving DecidableEq, Repr

inductive Purpose where
  | cue
  | refill
  | reread
  deriving DecidableEq, Repr

/-- The run record (02 R20). -/
structure Run where
  id           : Nat
  wanted       : Nat
  start        : Nat
  count        : Nat
  speed        : Speed
  owner        : Zone
  purpose      : Purpose
  settleLeft   : Nat
  received     : Nat
  /-- the expected address E -/
  expected     : Nat
  absentStreak : Nat
  backStreak   : Nat
  addressRead  : Bool
  deriving DecidableEq, Repr

structure Rsc where
  run        : Option Run
  /-- the run id counter (02 R21) -/
  nextId     : Nat
  /-- the stall timer: stopped, or armed with this limit in milliseconds (02 R34). LOG 9. -/
  stall      : Option Nat
  firstLimit : Nat
  nextLimit  : Nat
  failures   : Nat
  mechFault  : Bool
  /-- demand class 1 to 5, or none (02 R39) -/
  demand     : PerZone (Option Nat)
  refill     : PerZone Bool
  prevOwner  : Option Zone
  deriving DecidableEq, Repr

/-! ## Splice Unit -/

/-- The cause of a splice (03 R44). -/
inductive SpliceCause where
  | shock
  | focus
  | addressLoss
  | backSlip
  deriving DecidableEq, Repr

/-- How a splice ended (03 R47). -/
inductive SpliceOutcome where
  | verified
  | unverified
  | gap
  | abandoned
  deriving DecidableEq, Repr

inductive SpliceState where
  | waiting
  | reading
  | searching
  deriving DecidableEq, Repr

/-- A splice record (03 R46); its zone is the place it is held at. -/
structure SpliceRec where
  cause        : SpliceCause
  /-- the tail address T -/
  tail         : Nat
  cover        : Nat
  attemptsLeft : Nat
  overlap      : Nat
  attemptsMade : Nat
  state        : SpliceState
  deriving DecidableEq, Repr

/-- A pair of the reference window or of the stream, with its flag (03 R53, R54). -/
structure MarkedPair where
  pair    : SamplePair
  flagged : Bool
  deriving DecidableEq, Repr

/-- The search in flight: the copied reference window and the row fields as read at its start (03 R52).
`found` is the accepted position whose join waits for staged sector o + 1 (03 R57). -/
structure Search where
  zone       : Zone
  window     : List MarkedPair
  mismatches : Nat
  tolerance  : Nat
  found      : Option Nat
  deriving DecidableEq, Repr

structure Spl where
  recs    : PerZone (Option SpliceRec)
  /-- the staged slots in staging order; the place in the list is the staging index (03 R49, R50) -/
  staging : List Nat
  search  : Option Search
  deriving DecidableEq, Repr

/-! ## Surface Map -/

inductive SurfaceState where
  | clean
  | worn
  | damaged
  deriving DecidableEq, Repr

/-- The event that changed a surface record (04 R77). -/
inductive SurfaceCause where
  | sector
  | forwardSkip
  | backSlip
  | spliceFail
  | evicted
  deriving DecidableEq, Repr

structure SurfaceRec where
  granule : Nat
  count   : Nat
  state   : SurfaceState
  deriving DecidableEq, Repr

/-- A row of the repair policy table (04 R78). -/
structure PolicyRow where
  retry      : Nat
  settle     : Nat
  overlap    : Nat
  speed      : Speed
  /-- match window W -/
  window     : Nat
  /-- allowed mismatches X -/
  mismatches : Nat
  tolerance  : Nat
  lmax       : Nat
  rewind     : Nat
  gap        : Nat
  deriving DecidableEq, Repr

def PolicyRow.cleanDefault : PolicyRow := ⟨3, 1, 2, .x4, 32, 2, 0, 8, 2, 2⟩
def PolicyRow.wornDefault : PolicyRow := ⟨5, 2, 3, .x2, 32, 4, 2, 16, 3, 4⟩
def PolicyRow.damagedDefault : PolicyRow := ⟨7, 3, 4, .x1, 64, 8, 8, 32, 4, 8⟩

structure Sfm where
  /-- in granule order -/
  records : List SurfaceRec
  /-- the granules in recency order, least recent first -/
  recency : List Nat
  clean   : PolicyRow
  worn    : PolicyRow
  damaged : PolicyRow
  deriving DecidableEq, Repr

/-! ## Concealment Engine -/

/-- A zone's mode (05 R83). INTERPOLATING carries A, B, L, k and the slot of the entry that holds B (LOG 31). -/
inductive Mode where
  | pass
  | interpolating (a b : SamplePair) (len done slotB : Nat)
  | holding
  deriving DecidableEq, Repr

/-- The mute causes present (05 R83). -/
structure Causes where
  pause   : Bool
  stop    : Bool
  starved : Bool
  conceal : Bool
  seam    : Bool
  deriving DecidableEq, Repr

def Causes.none : Causes := ⟨false, false, false, false, false⟩

/-- One zone's concealment state (05 R83). -/
structure Cne where
  held   : SamplePair
  mode   : Mode
  gain   : Nat
  target : Nat
  causes : Causes
  deriving DecidableEq, Repr

/-- The values of 05 R97 and R98. -/
def Cne.silent : Cne := ⟨SamplePair.zero, .pass, 0, 0, Causes.none⟩

/-! ## Zone Controllers -/

inductive Priority where
  | high
  | low
  deriving DecidableEq, Repr

/-- A zone's setup record (06 R99). -/
structure Setup where
  enabled  : Bool
  priority : Priority
  target   : Nat
  lowWater : Nat
  resume   : Nat
  critical : Nat
  fade     : Nat
  deriving DecidableEq, Repr

inductive ZoneState where
  | idle
  | cueing
  | playing
  | paused
  | starved
  deriving DecidableEq, Repr

/-- The ACTIVE context (06 R101); its play position is the zone's position (R102), computed from the lane. -/
structure Active where
  track : Nat
  start : Nat
  stop  : Nat
  deriving DecidableEq, Repr

/-- Which step of the choice gave a NEXT context (06 R101, R106). -/
inductive Origin where
  | repeatTrack
  | program
  | order
  deriving DecidableEq, Repr

/-- The NEXT context (06 R101). -/
structure NextCtx where
  track      : Nat
  start      : Nat
  stop       : Nat
  contiguous : Bool
  origin     : Origin
  deriving DecidableEq, Repr

inductive RepeatMode where
  | off
  | track
  | list
  deriving DecidableEq, Repr

/-- A zone controller's state. `readOverEnd` is the end of the track read over when no replacement was found
(02 R31, 06 R108). LOG 20. -/
structure ZoneCtl where
  setup       : Setup
  state       : ZoneState
  active      : Option Active
  next        : Option NextCtx
  program     : List Nat
  repeatMode  : RepeatMode
  readOverEnd : Option Nat
  deriving DecidableEq, Repr

/-- Zone A's power-on setup (06 R99). -/
def Setup.defaultA : Setup := ⟨true, .high, 240, 150, 75, 38, 128⟩
/-- Zone B's power-on setup (06 R99). -/
def Setup.defaultB : Setup := ⟨false, .low, 240, 150, 75, 38, 128⟩

/-- A zone controller after power-on with a given setup (06 R120). -/
def ZoneCtl.initial (su : Setup) : ZoneCtl := ⟨su, .idle, none, none, [], .off, none⟩

/-! ## Track Table -/

inductive TableState where
  | empty
  | opened
  | closed
  deriving DecidableEq, Repr

inductive TrackKind where
  | audio
  | data
  deriving DecidableEq, Repr

structure Track where
  number : Nat
  start  : Nat
  kind   : TrackKind
  deriving DecidableEq, Repr

structure Ttb where
  state       : TableState
  entries     : List Track
  leadOut     : Option Nat
  fingerprint : Option Nat
  deriving DecidableEq, Repr

/-- An EMPTY table (07 R128, R130). -/
def Ttb.emptied : Ttb := ⟨.empty, [], none, none⟩

/-! ## Mechanism Monitor -/

inductive DiscState where
  | empty
  | loading
  | present
  | held
  | out
  | reloading
  deriving DecidableEq, Repr

structure Mmn where
  disc      : DiscState
  focusHeld : Bool
  /-- the hold timer: stopped, or running with the limit in seconds it was armed with (08 R139). LOG 9. -/
  holdTimer : Option Nat
  holdLimit : Nat
  /-- the retained fingerprint -/
  retained  : Option Nat
  deriving DecidableEq, Repr

/-- MMN after power-on and link reset (08 R142). -/
def Mmn.initial : Mmn := ⟨.empty, true, none, 10, none⟩

/-! ## Reports -/

inductive ResetCause where
  | powerOn
  | linkBreak
  | soft
  deriving DecidableEq, Repr

/-- The kind of a run failure (11 R162). -/
inductive FailKind where
  | stall
  | runRefused
  deriving DecidableEq, Repr

/-- The cause of a DISC-STATE report (08 R141). -/
inductive DiscCause where
  | trayHold
  | trayResume
  | discOut
  | discIn
  | focusLost
  | focusBack
  | tableOpen
  | tableClose
  | holdExpiry
  deriving DecidableEq, Repr

/-- Why a command is refused (10 R158). -/
inductive Reason where
  | badField
  | badTrack
  | badEntry
  | noDisc
  | discPresent
  | zoneDisabled
  | notInState
  | listFull
  | dataTrack
  deriving DecidableEq, Repr

/-- The cause of a ZONE-STATE report (06 R119). -/
inductive ZoneCause where
  | command
  | cover
  | shortfall
  | stop
  | endOfProgram
  | disable
  | teardown
  deriving DecidableEq, Repr

/-- The flag of a LINK-ERROR report (09 R148). -/
inductive LinkFlag where
  | framingError
  | checkError
  deriving DecidableEq, Repr

/-- Why a run is long (05 R87). -/
inductive ConcealReason where
  | tooLong
  | seam
  | laneEnd
  deriving DecidableEq, Repr

/-- The fields of a SPLICE report (03 R62). -/
structure SpliceReport where
  zone         : Zone
  cause        : SpliceCause
  outcome      : SpliceOutcome
  tail         : Nat
  cover        : Nat
  attemptsMade : Nat
  joinAddress  : Option Nat
  joinOffset   : Option Nat
  matchOffset  : Option Int
  deriving DecidableEq, Repr

/-- The fields of a STATUS reply (11 R164). -/
structure StatusReply where
  stateA          : ZoneState
  coverA          : Nat
  trackA          : Nat
  stateB          : ZoneState
  coverB          : Nat
  trackB          : Nat
  disc            : DiscState
  focusHeld       : Bool
  mechFault       : Bool
  queueCount      : Nat
  overrun         : Bool
  controlOverflow : Bool
  reportLost      : Bool
  checkError      : Bool
  framingError    : Bool
  powerOn         : Bool
  linkBreak       : Bool
  soft            : Bool
  deriving DecidableEq, Repr

/-- The reports and replies of 09 R146, with the fields their owning rules list. A position is an address and a pair
offset, none where the zone has none. -/
inductive Report where
  | reset (cause : ResetCause)
  | mechFault (zone : Zone) (kind : FailKind) (wanted : Nat)
  | discChanged (retained new : Nat)
  | holdExpired (disc : DiscState)
  | discState (old new : DiscState) (focusHeld : Bool) (cause : DiscCause)
  | refused (code : Byte) (reason : Reason)
  | starved (zone : Zone) (track : Nat) (pos : Option (Nat × Nat))
  | linkError (flag : LinkFlag) (kind : Byte)
  | trackChange (zone : Zone) (old new start : Nat) (contiguous : Bool)
  | endOfProgram (zone : Zone) (track : Nat)
  | lateResume (disc : DiscState)
  | zoneState (zone : Zone) (old new : ZoneState) (track : Nat) (pos : Option (Nat × Nat)) (cause : ZoneCause)
  | splice (r : SpliceReport)
  | concealed (zone : Zone) (address offset : Nat) (reason : ConcealReason)
  | surfaceState (granule : Nat) (old new : SurfaceState) (count : Nat) (cause : SurfaceCause)
  | status (r : StatusReply)
  | map (start held : Nat) (records : List SurfaceRec)
  deriving DecidableEq, Repr

/-! ## Delivery Port -/

/-- A request for the controller (09 R146, R152). -/
inductive Request where
  | readRun (id start : Nat) (speed : Speed) (sectors : Nat)
  | readHalt (id : Nat)
  deriving DecidableEq, Repr

/-- An AUDIO frame (06 R118, 09 R146). -/
structure AudioFrame where
  zone    : Zone
  /-- marked MUTED; otherwise PLAYING -/
  muted   : Bool
  track   : Nat
  address : Nat
  offset  : Nat
  pairs   : List SamplePair
  deriving DecidableEq, Repr

structure Dlp where
  /-- each zone's due frame -/
  due             : PerZone (Option AudioFrame)
  /-- each zone's cadence timer runs (09 R151) -/
  cadence         : PerZone Bool
  /-- oldest first -/
  requests        : List Request
  /-- oldest first -/
  reports         : List Report
  /-- the levels of report codes 0x01 to 0x0F in order (11 R162) -/
  levels          : List Nat
  threshold       : Nat
  overrun         : Bool
  overrunShown    : Bool
  controlOverflow : Bool
  reportLost      : Bool
  checkError      : Bool
  framingError    : Bool
  /-- the reset-cause record -/
  causePowerOn    : Bool
  causeLinkBreak  : Bool
  causeSoft       : Bool
  /-- the characters of the frame being sent, or none while the line is idle (09 R153) -/
  line            : Option (List Byte)
  deriving DecidableEq, Repr

/-- The default levels of 11 R162, in the order of the report codes. -/
def Dlp.defaultLevels : List Nat := [7, 6, 6, 6, 5, 5, 4, 4, 3, 3, 3, 2, 2, 1, 1]

/-! ## The machine -/

structure State where
  inp  : Inp
  sst  : Sst
  rsc  : Rsc
  spl  : Spl
  sfm  : Sfm
  cne  : PerZone Cne
  zone : PerZone ZoneCtl
  ttb  : Ttb
  mmn  : Mmn
  /-- the control queue: CONTROL payloads, oldest at the head (10 R155) -/
  cmi  : List (List Byte)
  dlp  : Dlp
  /-- the model's own: index of the next free value. LOG 7. -/
  free : Nat
  /-- the model's own: how many reports at the tail of the report queue came within the current command. LOG 6. -/
  evReports : Nat
  /-- the model's own: the commands that wait, first in first out. LOG 2. -/
  pending : List Instr
  deriving DecidableEq, Repr

/-- The store after power-on (01 R19). -/
def Sst.initial : Sst :=
  ⟨List.replicate 512 ⟨Sector.blank, 0⟩, List.range 512, ⟨Lane.empty, Lane.empty⟩⟩

/-- RSC after power-on (02 R43). -/
def Rsc.initial : Rsc :=
  ⟨none, 0, none, 800, 200, 0, false, ⟨none, none⟩, ⟨false, false⟩, none⟩

/-- SPL after a reset (03 R68). -/
def Spl.initial : Spl := ⟨⟨none, none⟩, [], none⟩

/-- SFM after power-on (04 R82). -/
def Sfm.initial : Sfm := ⟨[], [], .cleanDefault, .wornDefault, .damagedDefault⟩

/-- DLP after power-on (09 R154, 11 R166): the RESET report alone waits, and nothing is being sent. LOG 29. -/
def Dlp.initial : Dlp :=
  { due := ⟨none, none⟩, cadence := ⟨true, false⟩, requests := [], reports := [.reset .powerOn]
    levels := Dlp.defaultLevels, threshold := 0
    overrun := false, overrunShown := false, controlOverflow := false, reportLost := false
    checkError := false, framingError := false
    causePowerOn := true, causeLinkBreak := false, causeSoft := false, line := none }

/-- The machine right after power-on: each block as its chapter's reset rule gives it. -/
def State.reset : State :=
  { inp := .waitIdle, sst := .initial, rsc := .initial, spl := .initial, sfm := .initial
    cne := ⟨.silent, .silent⟩, zone := ⟨.initial .defaultA, .initial .defaultB⟩
    ttb := .emptied, mmn := .initial, cmi := [], dlp := .initial
    free := 0, evReports := 0, pending := [] }

end Sys2Proof.Machine
end

