-- ==== Sys2Proof/Machine/Flags.lean ====
section
/-! DEFINITION. Flag lists: their standard form (01 R1), which pairs they flag (05 R86), and the OVERRUN flag with its
shown mark (01 R12). -/

namespace Sys2Proof.Machine

/-- A run that would carry past pair 587 is cut to end there (01 R1). -/
def clipRun (r : FlagRun) : FlagRun := ⟨r.start, min r.len (588 - r.start)⟩

/-- A run put into a list kept in ascending order of start (01 R1). -/
def insertRun (r : FlagRun) : List FlagRun → List FlagRun
  | [] => [r]
  | x :: xs => if r.start ≤ x.start then r :: x :: xs else x :: insertRun r xs

/-- The runs in ascending order of start (01 R1). -/
def sortRuns (rs : List FlagRun) : List FlagRun := rs.foldr insertRun []

/-- Runs in ascending order, merged into `cur` while they overlap it or touch its end (01 R1). -/
def mergeInto (cur : FlagRun) : List FlagRun → List FlagRun
  | [] => [cur]
  | r :: rs =>
    if r.start ≤ cur.start + cur.len then
      mergeInto ⟨cur.start, max (cur.start + cur.len) (r.start + r.len) - cur.start⟩ rs
    else cur :: mergeInto r rs

/-- Runs that overlap, or that touch end to start, merged (01 R1). -/
def mergeRuns : List FlagRun → List FlagRun
  | [] => []
  | r :: rs => mergeInto r rs

/-- The standard form of a flag list (01 R1). -/
def standardFlags : FlagList → FlagList
  | .whole => .whole
  | .runs rs =>
    let merged := mergeRuns (sortRuns ((rs.filter runHandedOn).map clipRun))
    if merged = [⟨0, 588⟩] then .whole else .runs merged

/-- Whether the pair at a position is flagged (05 R86). -/
def flaggedAt (fl : FlagList) (i : Nat) : Bool :=
  match fl with
  | .whole => true
  | .runs rs => rs.any fun r => r.start ≤ i && i < r.start + r.len

/-- The record a slot is filled with from a SECTOR frame (01 R1). -/
def recordOf (f : SectorFrame) : Sector := ⟨f.readAddress, standardFlags f.flags, f.pairs⟩

/-- OVERRUN is set and its shown mark cleared: a sector is dropped for want of a free slot (01 R12). -/
def setOverrun (s : State) : State :=
  { s with dlp := { s.dlp with overrun := true, overrunShown := false } }

/-- A sector is stored in a lane: a shown OVERRUN is cleared with its mark (01 R12). -/
def storedClearsOverrun (s : State) : State :=
  if s.dlp.overrunShown then { s with dlp := { s.dlp with overrun := false, overrunShown := false } } else s

end Sys2Proof.Machine
end

