-- ==== Sys2Proof/Machine/Operands.lean ====
section
/-! DEFINITION. The operand forms of the control commands: how a field's value is brought into range or named. -/

namespace Sys2Proof.Machine

/-- A value outside a range is brought to the nearer end (00 "Ranges"). -/
def clamp (lo hi n : Nat) : Nat := max lo (min hi n)

/-- The zone a zone field names: 0 for A, 1 for B (09 R145). -/
def zoneOf (b : Byte) : Option Zone :=
  match b.toNat with
  | 0 => some .a
  | 1 => some .b
  | _ => none

/-- The enable a field names: off 0, on 1 (09 R145). -/
def enableOf (b : Byte) : Option Bool :=
  match b.toNat with
  | 0 => some false
  | 1 => some true
  | _ => none

/-- The priority a field names: HIGH 0, LOW 1 (09 R145). -/
def priorityOf (b : Byte) : Option Priority :=
  match b.toNat with
  | 0 => some .high
  | 1 => some .low
  | _ => none

/-- The track kind a field names: AUDIO 0, DATA 1 (09 R145). -/
def kindOf (b : Byte) : Option TrackKind :=
  match b.toNat with
  | 0 => some .audio
  | 1 => some .data
  | _ => none

/-- The repeat mode a field names: OFF 0, TRACK 1, LIST 2 (09 R145). -/
def modeOf (b : Byte) : Option RepeatMode :=
  match b.toNat with
  | 0 => some .off
  | 1 => some .track
  | 2 => some .list
  | _ => none

/-- The surface state a field names: CLEAN 0, WORN 1, DAMAGED 2 (09 R145). -/
def surfaceOf (b : Byte) : Option SurfaceState :=
  match b.toNat with
  | 0 => some .clean
  | 1 => some .worn
  | 2 => some .damaged
  | _ => none

/-- The nearest of 16, 32 and 64, a value halfway going to the larger (04 R79). -/
def nearestWindow (n : Nat) : Nat := if n < 24 then 16 else if n < 48 then 32 else 64

/-- The nearest of 1x, 2x and 4x, a value halfway going to the larger (04 R79). -/
def nearestSpeed (n : Nat) : Speed := if n < 2 then .x1 else if n < 3 then .x2 else .x4

/-- The row a POLICY LOAD carries, each field brought into its range (04 R78, R79). -/
def policyOf (f : PolicyFields) : PolicyRow :=
  { retry := clamp 0 7 f.retry.toNat
    settle := clamp 0 4 f.settle.toNat
    overlap := clamp 1 8 f.overlap.toNat
    speed := nearestSpeed f.speed.toNat
    window := nearestWindow f.window.toNat
    mismatches := clamp 0 16 f.mismatches.toNat
    tolerance := clamp 0 255 f.tolerance.toNat
    lmax := clamp 0 32 f.lmax.toNat
    rewind := clamp 0 8 f.rewind.toNat
    gap := clamp 0 75 f.gap.toNat }

/-- The setup a ZONE SETUP carries, brought into order in the sequence of 06 R99; the target is also lowered to 488
less the other zone's current target (01 R18). -/
def setupOf (enabled : Bool) (priority : Priority) (target low resume critical fade otherTarget : Nat) : Setup :=
  let t := min (clamp 32 448 target) (488 - otherTarget)
  let l := clamp 2 (t - 1) low
  let r := clamp 2 l resume
  { enabled := enabled, priority := priority, target := t, lowWater := l, resume := r
    critical := clamp 1 (r - 1) critical, fade := clamp 1 256 fade }

/-- A read speed as a multiple of playing speed (09 R146). -/
def speedCode : Speed → Nat
  | .x1 => 1
  | .x2 => 2
  | .x4 => 4

end Sys2Proof.Machine
end

