-- ==== Sys2Proof/Machine/Ops.lean ====
section
/-! DEFINITION. The named operations over the state's parts: each zone's lane, context and concealment state, and the
slots with their holder counts and the free list. -/

namespace Sys2Proof.Machine

/-! ## Per-zone parts -/

def State.lane (s : State) (z : Zone) : Lane := s.sst.lanes.get z

def State.setLane (s : State) (z : Zone) (l : Lane) : State :=
  { s with sst := { s.sst with lanes := s.sst.lanes.set z l } }

def State.ctl (s : State) (z : Zone) : ZoneCtl := s.zone.get z

def State.setCtl (s : State) (z : Zone) (c : ZoneCtl) : State := { s with zone := s.zone.set z c }

def State.conc (s : State) (z : Zone) : Cne := s.cne.get z

def State.setConc (s : State) (z : Zone) (c : Cne) : State := { s with cne := s.cne.set z c }

def State.splice (s : State) (z : Zone) : Option SpliceRec := s.spl.recs.get z

def State.setSplice (s : State) (z : Zone) (r : Option SpliceRec) : State :=
  { s with spl := { s.spl with recs := s.spl.recs.set z r } }

def State.setRun (s : State) (r : Option Run) : State := { s with rsc := { s.rsc with run := r } }

/-! ## Slots and the free list -/

def State.slot (s : State) (n : Nat) : Slot := s.sst.slots.getD n ⟨Sector.blank, 0⟩

def State.setSlot (s : State) (n : Nat) (x : Slot) : State :=
  { s with sst := { s.sst with slots := s.sst.slots.set n x } }

/-- A lane entry or staging position comes to refer to the slot: its count rises by one (01 R2). -/
def holdSlot (n : Nat) (s : State) : State :=
  s.setSlot n { s.slot n with holders := (s.slot n).holders + 1 }

/-- The slot is appended at the tail of the free list (01 R2). -/
def releaseSlot (n : Nat) (s : State) : State := { s with sst := { s.sst with free := s.sst.free ++ [n] } }

/-- A reference to the slot goes: its count falls by one, and at 0 the slot is released (01 R2). -/
def dropHold (n : Nat) (s : State) : State :=
  match (s.slot n).holders with
  | 0 => s
  | 1 => releaseSlot n (s.setSlot n { s.slot n with holders := 0 })
  | k + 2 => s.setSlot n { s.slot n with holders := k + 1 }

/-- The references of several slots go, one after the other. -/
def dropHolds : List Nat → State → State
  | [], s => s
  | n :: ns, s => dropHolds ns (dropHold n s)

/-- A request for a slot: the head of the free list, filled with the record and with no holder yet; refused when the
free list is empty (01 R3). -/
def takeSlot (rec : Sector) (s : State) : Option (Nat × State) :=
  match s.sst.free with
  | [] => none
  | n :: rest => some (n, { s with sst := { s.sst with free := rest, slots := s.sst.slots.set n ⟨rec, 0⟩ } })

/-! ## Zones -/

/-- The values CNE sets when a zone enters CUEING or IDLE (05 R97). -/
def silence (z : Zone) (s : State) : State := s.setConc z Cne.silent

/-- The end address of the lane's appending track: NEXT's end when NEXT is armed; after a read-over that found no
replacement, the end of the track read over; otherwise ACTIVE's end (02 R31). -/
def appendingEnd (z : Zone) (s : State) : Option Nat :=
  match (s.ctl z).next with
  | some n => some n.stop
  | none =>
    match (s.ctl z).readOverEnd with
    | some e => some e
    | none => (s.ctl z).active.map (·.stop)

/-- A lane is open while it has a tail address below the end address of its appending track (02 R31). -/
def isOpen (z : Zone) (s : State) : Bool :=
  match (s.lane z).tail, appendingEnd z s with
  | some t, some e => t < e
  | _, _ => false

/-- The pairs from the play position to the end of the lane (01 R7). -/
def pairsAhead (l : Lane) : Nat :=
  match l.entries with
  | [] => 0
  | e :: rest => (588 - l.playPos.getD e.offset) + (rest.map fun x => 588 - x.offset).sum

/-- A lane's cover (01 R7). -/
def coverOf (l : Lane) : Nat := pairsAhead l / 588

def cover (z : Zone) (s : State) : Nat := coverOf (s.lane z)

/-- A zone's position: the pair it will take next, as an address and an offset; none for an IDLE zone (06 R102). -/
def position (z : Zone) (s : State) : Option (Nat × Nat) :=
  if (s.ctl z).state = .idle then none
  else
    match (s.lane z).entries with
    | e :: _ => some (e.address, (s.lane z).playPos.getD e.offset)
    | [] => (s.lane z).tail.map fun t => (t, 0)

/-- ACTIVE's track number, 0 where there is none (11 R164). -/
def activeTrack (z : Zone) (s : State) : Nat :=
  match (s.ctl z).active with
  | some a => a.track
  | none => 0

end Sys2Proof.Machine
end

