-- ==== Sys2Proof/Machine/Wire.lean ====
section
/-! DEFINITION. The delivery frames as characters: the payload layouts and codings of 09 R146 and the envelope of
R143. Named values are coded by their place, from 0, in the list their owning rule gives. LOG 22. -/

namespace Sys2Proof.Machine

def zoneCode : Zone → Nat
  | .a => 0
  | .b => 1

def yesNo (b : Bool) : Nat := if b then 1 else 0

def zoneStateCode : ZoneState → Nat
  | .idle => 0
  | .cueing => 1
  | .playing => 2
  | .paused => 3
  | .starved => 4

def discCode : DiscState → Nat
  | .empty => 0
  | .loading => 1
  | .present => 2
  | .held => 3
  | .out => 4
  | .reloading => 5

def discCauseCode : DiscCause → Nat
  | .trayHold => 0
  | .trayResume => 1
  | .discOut => 2
  | .discIn => 3
  | .focusLost => 4
  | .focusBack => 5
  | .tableOpen => 6
  | .tableClose => 7
  | .holdExpiry => 8

def resetCauseCode : ResetCause → Nat
  | .powerOn => 0
  | .linkBreak => 1
  | .soft => 2

def failKindCode : FailKind → Nat
  | .stall => 0
  | .runRefused => 1

def reasonCode : Reason → Nat
  | .badField => 0
  | .badTrack => 1
  | .badEntry => 2
  | .noDisc => 3
  | .discPresent => 4
  | .zoneDisabled => 5
  | .notInState => 6
  | .listFull => 7
  | .dataTrack => 8

def zoneCauseCode : ZoneCause → Nat
  | .command => 0
  | .cover => 1
  | .shortfall => 2
  | .stop => 3
  | .endOfProgram => 4
  | .disable => 5
  | .teardown => 6

def linkFlagCode : LinkFlag → Nat
  | .framingError => 0
  | .checkError => 1

def spliceCauseCode : SpliceCause → Nat
  | .shock => 0
  | .focus => 1
  | .addressLoss => 2
  | .backSlip => 3

def spliceOutcomeCode : SpliceOutcome → Nat
  | .verified => 0
  | .unverified => 1
  | .gap => 2
  | .abandoned => 3

def concealReasonCode : ConcealReason → Nat
  | .tooLong => 0
  | .seam => 1
  | .laneEnd => 2

def surfaceCode : SurfaceState → Nat
  | .clean => 0
  | .worn => 1
  | .damaged => 2

def surfaceCauseCode : SurfaceCause → Nat
  | .sector => 0
  | .forwardSkip => 1
  | .backSlip => 2
  | .spliceFail => 3
  | .evicted => 4

/-- An address: three characters, 0xFFFFFF for absent. -/
def addressBytes (a : Option Nat) : List Byte := beBytes 3 (a.getD 0xFFFFFF)

/-- A pair offset: two characters, 0xFFFF for absent. -/
def offsetBytes (o : Option Nat) : List Byte := beBytes 2 (o.getD 0xFFFF)

/-- A position: an address and a pair offset. -/
def positionBytes (p : Option (Nat × Nat)) : List Byte := addressBytes (p.map (·.1)) ++ offsetBytes (p.map (·.2))

/-- A signed offset: two characters in two's complement, 0x8000 for absent. -/
def signedBytes (o : Option Int) : List Byte :=
  bytes16 (match o with | some i => BitVec.ofInt 16 i | none => 0x8000#16)

/-- The report codes of 09 R146. -/
def reportCode : Report → Nat
  | .reset .. => 0x01
  | .mechFault .. => 0x02
  | .discChanged .. => 0x03
  | .holdExpired .. => 0x04
  | .discState .. => 0x05
  | .refused .. => 0x06
  | .starved .. => 0x07
  | .linkError .. => 0x08
  | .trackChange .. => 0x09
  | .endOfProgram .. => 0x0A
  | .lateResume .. => 0x0B
  | .zoneState .. => 0x0C
  | .splice .. => 0x0D
  | .concealed .. => 0x0E
  | .surfaceState .. => 0x0F
  | .status .. => 0x20
  | .map .. => 0x21

/-- The fields of a SPLICE report (03 R62). -/
def spliceBytes (r : SpliceReport) : List Byte :=
  beBytes 1 (zoneCode r.zone) ++ beBytes 1 (spliceCauseCode r.cause) ++ beBytes 1 (spliceOutcomeCode r.outcome)
    ++ beBytes 3 r.tail ++ beBytes 2 r.cover ++ beBytes 2 r.attemptsMade
    ++ addressBytes r.joinAddress ++ offsetBytes r.joinOffset ++ signedBytes r.matchOffset

/-- The fields of a STATUS reply (11 R164). A reset cause is coded 1 where it is present and 0 where it is absent (LOG
22). -/
def statusBytes (r : StatusReply) : List Byte :=
  beBytes 1 (zoneStateCode r.stateA) ++ beBytes 2 r.coverA ++ beBytes 1 r.trackA
    ++ beBytes 1 (zoneStateCode r.stateB) ++ beBytes 2 r.coverB ++ beBytes 1 r.trackB
    ++ beBytes 1 (discCode r.disc) ++ beBytes 1 (yesNo r.focusHeld) ++ beBytes 1 (yesNo r.mechFault)
    ++ beBytes 2 r.queueCount ++ beBytes 1 (yesNo r.overrun) ++ beBytes 1 (yesNo r.controlOverflow)
    ++ beBytes 1 (yesNo r.reportLost) ++ beBytes 1 (yesNo r.checkError) ++ beBytes 1 (yesNo r.framingError)
    ++ beBytes 1 (yesNo r.powerOn) ++ beBytes 1 (yesNo r.linkBreak) ++ beBytes 1 (yesNo r.soft)

/-- One surface record of a MAP reply (04 R81). -/
def surfaceRecBytes (r : SurfaceRec) : List Byte :=
  beBytes 2 r.granule ++ beBytes 2 r.count ++ beBytes 1 (surfaceCode r.state)

/-- A report's fields, in the order its owning rule lists them (09 R146). -/
def reportFields : Report → List Byte
  | .reset c => beBytes 1 (resetCauseCode c)
  | .mechFault z k w => beBytes 1 (zoneCode z) ++ beBytes 1 (failKindCode k) ++ beBytes 3 w
  | .discChanged r n => beBytes 4 r ++ beBytes 4 n
  | .holdExpired d => beBytes 1 (discCode d)
  | .discState o n f c =>
    beBytes 1 (discCode o) ++ beBytes 1 (discCode n) ++ beBytes 1 (yesNo f) ++ beBytes 1 (discCauseCode c)
  | .refused c r => c :: beBytes 1 (reasonCode r)
  | .starved z t p => beBytes 1 (zoneCode z) ++ beBytes 1 t ++ positionBytes p
  | .linkError f k => beBytes 1 (linkFlagCode f) ++ [k]
  | .trackChange z o n a c =>
    beBytes 1 (zoneCode z) ++ beBytes 1 o ++ beBytes 1 n ++ beBytes 3 a ++ beBytes 1 (yesNo c)
  | .endOfProgram z t => beBytes 1 (zoneCode z) ++ beBytes 1 t
  | .lateResume d => beBytes 1 (discCode d)
  | .zoneState z o n t p c =>
    beBytes 1 (zoneCode z) ++ beBytes 1 (zoneStateCode o) ++ beBytes 1 (zoneStateCode n) ++ beBytes 1 t
      ++ positionBytes p ++ beBytes 1 (zoneCauseCode c)
  | .splice r => spliceBytes r
  | .concealed z a o r =>
    beBytes 1 (zoneCode z) ++ beBytes 3 a ++ beBytes 2 o ++ beBytes 1 (concealReasonCode r)
  | .surfaceState g o n c k =>
    beBytes 2 g ++ beBytes 1 (surfaceCode o) ++ beBytes 1 (surfaceCode n) ++ beBytes 2 c
      ++ beBytes 1 (surfaceCauseCode k)
  | .status r => statusBytes r
  | .map i h rs => beBytes 2 i ++ beBytes 2 h ++ beBytes 1 rs.length ++ rs.flatMap surfaceRecBytes

/-- A REPORT payload: the report code, then the fields (09 R146). -/
def reportPayload (r : Report) : List Byte := beBytes 1 (reportCode r) ++ reportFields r

/-- A REQUEST payload (09 R146). -/
def requestPayload : Request → List Byte
  | .readRun id start sp n =>
    0x01#8 :: (beBytes 1 id ++ beBytes 3 start ++ beBytes 1 (speedCode sp) ++ beBytes 1 n)
  | .readHalt id => 0x02#8 :: beBytes 1 id

/-- An AUDIO payload (09 R146). -/
def audioPayload (f : AudioFrame) : List Byte :=
  beBytes 1 (zoneCode f.zone) ++ beBytes 1 (yesNo f.muted) ++ beBytes 1 f.track ++ beBytes 3 f.address
    ++ beBytes 2 f.offset ++ f.pairs.flatMap pairBytes

def audioWire (f : AudioFrame) : List Byte := frameBytes 0x11#8 (audioPayload f)

def requestWire (r : Request) : List Byte := frameBytes 0x12#8 (requestPayload r)

def reportWire (r : Report) : List Byte := frameBytes 0x13#8 (reportPayload r)

end Sys2Proof.Machine
end

