-- ==== Sys2Proof/Machine/Delivery.lean ====
section
/-! DEFINITION. The Delivery Port's operations: posting reports, placing requests, and choosing what the delivery line
carries next (09 R151 to R153, 11 R162 to R165). -/

namespace Sys2Proof.Machine

/-- The blocks that post reports. -/
inductive Block where
  | inp
  | rsc
  | spl
  | sfm
  | cne
  | zc (z : Zone)
  | mmn
  | cmi
  | dlp
  deriving DecidableEq, Repr

/-- The block that posts a report or forms a reply. -/
def reportBlock : Report → Block
  | .reset .. => .dlp
  | .mechFault .. => .rsc
  | .discChanged .. => .mmn
  | .holdExpired .. => .mmn
  | .discState .. => .mmn
  | .refused .. => .cmi
  | .starved z .. => .zc z
  | .linkError .. => .inp
  | .trackChange z .. => .zc z
  | .endOfProgram z .. => .zc z
  | .lateResume .. => .mmn
  | .zoneState z .. => .zc z
  | .splice .. => .spl
  | .concealed .. => .cne
  | .surfaceState .. => .sfm
  | .status .. => .dlp
  | .map .. => .sfm

/-- The zone a zone controller's or SPL's report is about. -/
def reportZone : Report → Option Zone
  | .starved z .. | .trackChange z .. | .endOfProgram z .. | .zoneState z .. => some z
  | .splice q => some q.zone
  | _ => none

/-- Whether `r` may be placed before a report `x` that came before it: "Reports from different blocks that reach DLP
together may be placed in either order" (11 R163). They reach it together where no owning rule puts `x` first: the cause
of a MECH-FAULT and what it leads to (02 R23 step 4); a change of focus and what its mark leads to (08 R132); what two
zones do; what CNE posts at a pair and the swap at that pair (05 R85, 06 R107); and a splice's end and the test of its zone
(03 R57 to R60, 06 R103). Everything else keeps its order: what a health event leads to comes behind its SURFACE-STATE (02
R24, R26, R30, 03 R58), and what follows a flush behind its SPLICE (06 R100, R103, R105, R114, R116). LOG 6. -/
def mayPass (r x : Report) : Bool :=
  reportBlock x != reportBlock r &&
    match r, x with
    | _, .mechFault .. | .discState .., _ | .trackChange .., .concealed .. | .splice _, .concealed .. => true
    | .zoneState _ _ _ _ _ .cover, .splice _ => true
    | _, _ =>
      match reportZone r, reportZone x with
      | some y, some z => y != z
      | _, _ => false

/-- How many reports at the tail of the queue, all of this event, `r` may be placed before (11 R163). -/
def placesBack (r : Report) (s : State) : Nat :=
  ((s.dlp.reports.drop (s.dlp.reports.length - s.evReports)).reverse.takeWhile (mayPass r)).length

/-- A report or reply is placed in the report queue (11 R163): behind the queued ones, or, at the free choice, before
reports of the same event that it may pass. Which of an event's reports the full queue drops is settled when the event
ends (`dropLost`). -/
def placeReport (r : Report) (s : State) : State :=
  let room := placesBack r s
  let back := if room = 0 then 0 else Config.freeChoice s.free % (room + 1)
  let at_ := s.dlp.reports.length - back
  { s with
    dlp := { s.dlp with reports := s.dlp.reports.take at_ ++ r :: s.dlp.reports.drop at_ }
    free := if room = 0 then s.free else s.free + 1
    evReports := s.evReports + 1 }

/-- The level of a report's kind (11 R162). -/
def levelOf (r : Report) (s : State) : Nat := s.dlp.levels.getD (reportCode r - 1) 0

/-- A block posts a report: it is placed if its kind's level is above the threshold, and discarded otherwise (11 R162). -/
def post (r : Report) (s : State) : State :=
  if s.dlp.threshold < levelOf r s then placeReport r s else s

/-- What follows is ordered behind the reports already posted: the owning rule gives the order (05 R85, 06 R105, R109, R114,
07 R126, 08 R138, R141). -/
def inOrder (s : State) : State := { s with evReports := 0 }

/-- RSC places a request (09 R152). -/
def placeRequest (r : Request) (s : State) : State :=
  { s with dlp := { s.dlp with requests := s.dlp.requests ++ [r] } }

/-- Whether a request is the READ RUN of the run with this id. -/
def isReadRun (id : Nat) : Request → Bool
  | .readRun i .. => i == id
  | .readHalt _ => false

/-- Whether the run's READ RUN still waits in the request queue (02 R23). -/
def readRunWaits (id : Nat) (s : State) : Bool := s.dlp.requests.any (isReadRun id)

/-- DLP removes a READ RUN that still waits (02 R23). -/
def withdrawReadRun (id : Nat) (s : State) : State :=
  { s with dlp := { s.dlp with requests := s.dlp.requests.filter fun r => !isReadRun id r } }

/-! ## The line -/

/-- What a STATUS reply clears when its transmission begins (11 R165, 01 R12). -/
def statusShown (r : StatusReply) (s : State) : State :=
  { s with
    dlp := { s.dlp with
      controlOverflow := s.dlp.controlOverflow && !r.controlOverflow
      reportLost := s.dlp.reportLost && !r.reportLost
      checkError := s.dlp.checkError && !r.checkError
      framingError := s.dlp.framingError && !r.framingError
      causePowerOn := s.dlp.causePowerOn && !r.powerOn
      causeLinkBreak := s.dlp.causeLinkBreak && !r.linkBreak
      causeSoft := s.dlp.causeSoft && !r.soft
      overrunShown := s.dlp.overrunShown || r.overrun } }

/-- The kinds of frame that may wait for the line (09 R153). -/
inductive LineClass where
  | audio (z : Zone)
  | request
  | report
  deriving DecidableEq, Repr

/-- What waits for the line, in the arbiter's order (09 R153). -/
def waitingClasses (s : State) : List LineClass :=
  (if s.dlp.due.a.isSome then [.audio .a] else []) ++ (if s.dlp.due.b.isSome then [.audio .b] else [])
    ++ (if s.dlp.requests.isEmpty then [] else [.request]) ++ (if s.dlp.reports.isEmpty then [] else [.report])

/-- The transmission of the oldest waiting frame of a class begins: it leaves its place (09 R151, R152, 11 R163). -/
def startFrame (c : LineClass) (s : State) : State :=
  match c with
  | .audio z =>
    match s.dlp.due.get z with
    | none => s
    | some f => { s with dlp := { s.dlp with due := s.dlp.due.set z none, line := some (audioWire f) } }
  | .request =>
    match s.dlp.requests with
    | [] => s
    | r :: rest => { s with dlp := { s.dlp with requests := rest, line := some (requestWire r) } }
  | .report =>
    match s.dlp.reports with
    | [] => s
    | r :: rest =>
      let t := { s with dlp := { s.dlp with reports := rest, line := some (reportWire r) } }
      match r with
      | .status x => statusShown x t
      | _ => t

/-- The line has fallen free: the arbiter starts the first waiting class in its order (09 R153). -/
def arbitrate (s : State) : State :=
  match waitingClasses s with
  | [] => s
  | c :: _ => startFrame c s

/-- Frames that have become ready at the idle line: one is sent at once, and the others wait; of several that became
ready together either may be taken first, at the free choice (09 R153). LOG 5. -/
def lineStart (s : State) : State :=
  if s.dlp.line.isSome then s
  else
    match waitingClasses s with
    | [] => s
    | [c] => startFrame c s
    | c :: d :: cs =>
      startFrame ((c :: d :: cs).getD (Config.freeChoice s.free % (cs.length + 2)) c) { s with free := s.free + 1 }

/-- The reports of an event that found 16 entries in the queue are dropped, and REPORT-LOST is set (11 R163). -/
def dropLost (s : State) : State :=
  if s.dlp.reports.length ≤ 16 then s
  else { s with dlp := { s.dlp with reports := s.dlp.reports.take 16, reportLost := true } }

/-- An event begins: its reports are counted from none (LOG 6). Only right after power-on can a frame still wait at the
idle line, which then takes it (LOG 29). -/
def beginEvent (s : State) : State := lineStart { s with evReports := 0 }

/-- An event ends: of the frames it made ready at the idle line one is sent at once (09 R153), and the report queue keeps
what it has room for (11 R163). -/
def endEvent (s : State) : State := dropLost (lineStart s)

/-- A command is one event, taken whole, and always leaves a next state. -/
def event (f : State → State) (s : State) : Host.Outcome State Fault Refusal := .next (endEvent (f (beginEvent s)))

end Sys2Proof.Machine
end

