-- ==== Sys2Proof/Machine/Surface.lean ====
section
/-! DEFINITION. The Surface Map: health events, surface states, eviction, and the choice of a policy row (04). -/

namespace Sys2Proof.Machine

/-- The granule of an address (04 R70). -/
def granuleOf (a : Nat) : Nat := a / 75

def Sfm.find (m : Sfm) (g : Nat) : Option SurfaceRec := m.records.find? fun r => r.granule == g

/-- A granule's state: its record's, or CLEAN (04 R70). -/
def Sfm.stateAt (m : Sfm) (g : Nat) : SurfaceState :=
  match m.find g with
  | some r => r.state
  | none => .clean

def Sfm.row (m : Sfm) : SurfaceState → PolicyRow
  | .clean => m.clean
  | .worn => m.worn
  | .damaged => m.damaged

def Sfm.setRow (m : Sfm) (st : SurfaceState) (r : PolicyRow) : Sfm :=
  match st with
  | .clean => { m with clean := r }
  | .worn => { m with worn := r }
  | .damaged => { m with damaged := r }

/-- The policy row a decision about a granule reads (04 R80). -/
def rowOfGranule (s : State) (g : Nat) : PolicyRow := s.sfm.row (s.sfm.stateAt g)

/-- The policy row for the granule of an address. -/
def rowOfAddress (s : State) (a : Nat) : PolicyRow := rowOfGranule s (granuleOf a)

/-- The rising transitions, in the order of the table (04 R76). -/
def risingState (st : SurfaceState) (count : Nat) : SurfaceState :=
  let st := if st = .clean ∧ 32 ≤ count then .worn else st
  if st = .worn ∧ 128 ≤ count then .damaged else st

/-- The falling transitions, in the order of the table (04 R76). -/
def fallingState (st : SurfaceState) (count : Nat) : SurfaceState :=
  let st := if st = .worn ∧ count ≤ 15 then .clean else st
  if st = .damaged ∧ count ≤ 95 then .worn else st

/-- The state a change leaves (04 R76). -/
def stateAfter (st : SurfaceState) (count : Nat) (change : Int) : SurfaceState :=
  if 0 < change then risingState st count else fallingState st count

/-- The record with the lowest count, the least recent among equals: the first lowest in recency order (04 R75). -/
def victimOf (m : Sfm) : Option SurfaceRec :=
  (m.recency.filterMap m.find).foldl
    (fun best r => match best with
      | none => some r
      | some b => if r.count < b.count then some r else some b) none

def Sfm.remove (m : Sfm) (g : Nat) : Sfm :=
  { m with records := m.records.filter (fun r => r.granule != g), recency := m.recency.filter (· != g) }

/-- A record put in its place in granule order. -/
def insertRec (r : SurfaceRec) : List SurfaceRec → List SurfaceRec
  | [] => [r]
  | x :: xs => if r.granule < x.granule then r :: x :: xs else x :: insertRec r xs

def Sfm.add (m : Sfm) (r : SurfaceRec) : Sfm :=
  { m with records := insertRec r m.records, recency := m.recency ++ [r.granule] }

/-- The map with a record's count and state replaced; the record becomes the most recent (04 R73). -/
def Sfm.update (m : Sfm) (r : SurfaceRec) : Sfm :=
  { m with
    records := m.records.map fun x => if x.granule = r.granule then r else x
    recency := m.recency.filter (· != r.granule) ++ [r.granule] }

/-- Room for a new record: where the map holds 64, one is evicted, with a report if it was WORN or DAMAGED (04 R75). -/
def evictForRoom (s : State) : State :=
  if s.sfm.records.length < 64 then s
  else
    match victimOf s.sfm with
    | none => s
    | some v =>
      let t := { s with sfm := s.sfm.remove v.granule }
      if v.state = .clean then t else post (.surfaceState v.granule v.state .clean 0 .evicted) t

/-- The count after a change, which stops at 255 and at 0 (04 R73). -/
def countAfter (count : Nat) (change : Int) : Nat := min 255 ((count : Int) + change).toNat

/-- A change reaches a granule that has a record (04 R73). -/
def changeRecord (r : SurfaceRec) (change : Int) (cause : SurfaceCause) (s : State) : State :=
  let count := countAfter r.count change
  if count = 0 then { s with sfm := s.sfm.remove r.granule }
  else
    let st := stateAfter r.state count change
    let t := { s with sfm := s.sfm.update ⟨r.granule, count, st⟩ }
    if st = r.state then t else post (.surfaceState r.granule r.state st count cause) t

/-- A positive change reaches a granule that has no record (04 R74). -/
def createRecord (g : Nat) (change : Int) (s : State) : State :=
  let s := evictForRoom s
  { s with sfm := s.sfm.add ⟨g, change.toNat, risingState .clean change.toNat⟩ }

/-- A health event reaches the map (04 R73, R74). -/
def healthEvent (g : Nat) (change : Int) (cause : SurfaceCause) (s : State) : State :=
  match s.sfm.find g with
  | some r => changeRecord r change cause s
  | none => if 0 < change then createRecord g change s else s

/-- The change of a sector event: the first row of 04 R71 that fits. -/
def sectorChange (flags : FlagList) (quality : Nat) : Int :=
  match flags with
  | .whole => 8
  | .runs (_ :: _) => 4
  | .runs [] => if 12 ≤ quality then 1 else -1

/-- RSC posts the sector event of a sector that carries a read address (02 R24, 04 R71). -/
def sectorEvent (f : SectorFrame) (s : State) : State :=
  match f.readAddress with
  | none => s
  | some a => healthEvent (granuleOf a) (sectorChange (standardFlags f.flags) f.quality) .sector s

/-- The records of a MAP reply: those from the start index on, at most 16 (04 R81). -/
def mapPage (m : Sfm) (start : Nat) : List SurfaceRec := (m.records.drop start).take 16

end Sys2Proof.Machine
end

