-- ==== Sys2Proof/Machine/Store.lean ====
section
/-! DEFINITION. The Sector Store's operations on the lanes: appending, storing and joining, taking pairs, and removing
entries from the tail by rewind, trim and flush (01 R6 to R17). -/

namespace Sys2Proof.Machine

/-! ## Appending -/

/-- An entry is appended to a lane (01 R8, R9): it becomes the boundary entry if the boundary is pending, the play
position if the lane was empty; the tail address, pending seam and current-run count follow. -/
def Lane.append (l : Lane) (e : Entry) : Lane :=
  { l with
    entries := l.entries ++ [e]
    playPos := if l.entries.isEmpty then some e.offset else l.playPos
    tail := some (e.address + 1)
    pendingSeam := .none
    boundary := if l.boundary = .pending then .entry e.slot else l.boundary
    runCount := l.runCount + 1 }

/-- The entry an ordinary append or a join makes for a slot (01 R9, R10). -/
def plainEntry (l : Lane) (slot address : Nat) : Entry :=
  ⟨slot, address, l.appending.getD 0, 0, l.pendingSeam⟩

/-- A slot is appended to a lane at an address, and gains a holder (01 R9, R10). -/
def appendSlot (z : Zone) (slot address : Nat) (s : State) : State :=
  let t := holdSlot slot s
  t.setLane z ((t.lane z).append (plainEntry (t.lane z) slot address))

/-- Whether an address lies within the bounds of the zone's ACTIVE track, or of its NEXT track if armed (01 R10). -/
def withinTracks (z : Zone) (a : Nat) (s : State) : Bool :=
  (match (s.ctl z).active with
    | some c => c.start ≤ a && a < c.stop
    | none => false)
  || (match (s.ctl z).next with
    | some n => n.start ≤ a && a < n.stop
    | none => false)

/-- The join conditions for lane `y` and a sector stored at an address (01 R10). -/
def joins (y : Zone) (a : Nat) (s : State) : Bool :=
  (s.ctl y).state != .idle
    && (s.splice y).isNone
    && (s.lane y).tail == some a
    && cover y s < (s.ctl y).setup.target
    && (s.lane y).entries.length < 448
    && withinTracks y a s

/-- Whether lane `x` can take a sector: it holds fewer than 448 entries and the free list is not empty (01 R9). -/
def canStore (x : Zone) (s : State) : Bool :=
  (s.lane x).entries.length < 448 && !s.sst.free.isEmpty

/-- A sector is stored in lane `x` at an address, and joined to the other lane where every condition of R10 holds
(01 R9, R10, R12). Only for a sector that `canStore` admits. -/
def storeSector (x : Zone) (rec : Sector) (a : Nat) (s : State) : State :=
  match takeSlot rec s with
  | none => s
  | some (n, t) =>
    let t := storedClearsOverrun (appendSlot x n a t)
    if joins x.other a t then appendSlot x.other n a t else t

/-- A sector for lane `x` is dropped (01 R11): OVERRUN is set when the free list is empty. Where the lane is full too,
R11 gives both outcomes, and the choice is free (LOG 15). -/
def dropSector (x : Zone) (s : State) : State :=
  if s.sst.free.isEmpty then
    if (s.lane x).entries.length < 448 then setOverrun s
    else
      let t := { s with free := s.free + 1 }
      if Config.freeChoice s.free % 2 = 0 then setOverrun t else t
  else s

/-! ## Taking a pair -/

/-- Whether the pair at the play position is the first pair of the boundary entry (01 R6). -/
def atBoundary (l : Lane) : Bool :=
  match l.entries with
  | [] => false
  | e :: _ => l.boundary == .entry e.slot && l.playPos.getD e.offset == e.offset

/-- The lane after its head entry has been taken whole (01 R4, R6). -/
def Lane.dropHead (l : Lane) : Lane :=
  match l.entries with
  | [] => l
  | _ :: rest =>
    { l with
      entries := rest
      playPos := rest.head?.map (·.offset)
      runCount := if l.runCount = l.entries.length then l.runCount - 1 else l.runCount }

/-- A pair is taken from a lane (01 R6): the play position advances, the head entry leaves after pair 587, and the
boundary becomes absent when its first pair is taken. -/
def takePair (z : Zone) (s : State) : State :=
  let l := s.lane z
  match l.entries with
  | [] => s
  | e :: _ =>
    let pos := l.playPos.getD e.offset
    let l := if atBoundary l then { l with boundary := .absent } else l
    if 587 ≤ pos then dropHold e.slot (s.setLane z l.dropHead)
    else s.setLane z { l with playPos := some (pos + 1) }

/-! ## Removing from the tail -/

/-- CNE is told that the entry of a slot is removed from a zone's lane: an interpolation whose B lies there is dropped
(05 R90). Entries go last first, so an entry that holds pairs of the run not yet produced goes only after B's. -/
def dropInterpolation (z : Zone) (slot : Nat) (s : State) : State :=
  match (s.conc z).mode with
  | .interpolating _ _ _ _ b => if b = slot then s.setConc z { s.conc z with mode := .pass } else s
  | _ => s

/-- The lane without its tail entry (01 R13). -/
def Lane.dropTail (l : Lane) : Lane :=
  match l.entries.getLast? with
  | none => l
  | some e =>
    { l with
      entries := l.entries.dropLast
      playPos := if l.entries.length ≤ 1 then none else l.playPos
      boundary := if l.boundary = .entry e.slot then .pending else l.boundary
      runCount := l.runCount - 1 }

/-- The tail entry of a lane is removed (01 R13). -/
def removeTail (z : Zone) (s : State) : State :=
  match (s.lane z).entries.getLast? with
  | none => s
  | some e => dropInterpolation z e.slot (dropHold e.slot (s.setLane z (s.lane z).dropTail))

/-- The last `n` entries of a lane are removed, last first. -/
def removeTails : Nat → Zone → State → State
  | 0, _, s => s
  | n + 1, z, s => removeTails n z (removeTail z s)

/-- A flush (01 R17), less what it brings about in RSC and SPL. -/
def flushLane (z : Zone) (s : State) : State :=
  let t := removeTails (s.lane z).entries.length z s
  t.setLane z
    { t.lane z with
      playPos := none, tail := none, appending := none, pendingSeam := .none, boundary := .absent, runCount := 0 }

/-- How many entries a trim removes: the boundary entry and every entry after it (01 R16). -/
def trimCount (l : Lane) : Nat :=
  match l.boundary with
  | .entry b => l.entries.length - l.entries.findIdx fun e => e.slot == b
  | _ => 0

/-- A trim (01 R16) to ACTIVE's track and end, less what it brings about in RSC and SPL. The pending seam is NONE also where
a GAP had carried the tail to ACTIVE's end (LOG 36). The boundary entry goes also where it is the head of a PLAYING or PAUSED
lane with no pair of it taken, as R16's steps say and not its last sentence and 05 R90 (LOG 41). -/
def trimLane (z : Zone) (track stop : Nat) (s : State) : State :=
  let t := removeTails (trimCount (s.lane z)) z s
  t.setLane z
    { t.lane z with tail := some stop, appending := some track, pendingSeam := .none, boundary := .absent }

/-! ## Rewind -/

/-- The tail entry is in play: it is the head entry of a lane whose zone is PLAYING or PAUSED (01 R14). -/
def tailInPlay (z : Zone) (s : State) : Bool :=
  (s.lane z).entries.length == 1 && ((s.ctl z).state == .playing || (s.ctl z).state == .paused)

/-- While the boundary is pending, the entry's address plus one is the start of the zone's armed NEXT track (01 R14, R15).
The test is on the address alone: with a NEXT that is not contiguous, armed and with no entry yet, it does not keep the
last entry of ACTIVE's track, in either lane, where R14's summary would have the tail never carried back across NEXT's start
(LOG 14). -/
def meetsNextStart (z : Zone) (e : Entry) (s : State) : Bool :=
  (s.lane z).boundary == .pending
    && (match (s.ctl z).next with
      | some n => e.address + 1 == n.start
      | none => false)

/-- The tests a rewind applies to a lane's tail entry (01 R14, R15). `past` says that this rewind has already removed
the lane's boundary entry, so that the tail entry is the one just before it. LOG 14. -/
def rewindStops (z : Zone) (past : Bool) (e : Entry) (s : State) : Bool :=
  tailInPlay z s || past || meetsNextStart z e s

/-- A rewind removes a lane's tail entry: the tail address becomes the entry's, the pending seam its seam if TRACK or
GAP and NONE otherwise (01 R14). -/
def rewindEntry (z : Zone) (e : Entry) (s : State) : State :=
  let t := removeTail z s
  t.setLane z
    { t.lane z with
      tail := some e.address
      pendingSeam := if e.seam = .track ∨ e.seam = .gap then e.seam else .none }

/-- The rewind of lane `x` by up to `n` entries; an entry whose slot the other lane lists leaves both lanes in one step,
if it passes the tests in both (01 R14, R15). `px` and `py` say which lane's boundary entry has gone. -/
def rewindLoop : Nat → Zone → Bool → Bool → State → State
  | 0, _, _, _, s => s
  | n + 1, x, px, py, s =>
    match (s.lane x).entries.getLast? with
    | none => s
    | some e =>
      if (s.lane x).runCount = 0 || rewindStops x px e s then s
      else
        let px' := px || (s.lane x).boundary == .entry e.slot
        match (s.lane x.other).entries.getLast? with
        | some f =>
          if f.slot = e.slot then
            if rewindStops x.other py f s then s
            else
              rewindLoop n x px' (py || (s.lane x.other).boundary == .entry f.slot)
                (rewindEntry x.other f (rewindEntry x e s))
          else rewindLoop n x px' py (rewindEntry x e s)
        | none => rewindLoop n x px' py (rewindEntry x e s)

/-- A rewind (01 R14, R15). -/
def rewind (x : Zone) (n : Nat) (s : State) : State := rewindLoop n x false false s

end Sys2Proof.Machine
end

