-- ==== Sys2Proof/Machine/Scheduler.lean ====
section
/-! DEFINITION. The Read Scheduler's operations: demand, arbitration, issuing a run, and the end of a run (02). -/

namespace Sys2Proof.Machine

/-! ## Reading allowed, demand -/

/-- Reading is allowed (02 R38). -/
def readingAllowed (s : State) : Bool := s.mmn.disc == .present && s.mmn.focusHeld && !s.rsc.mechFault

/-- Staging is held by the other zone's splice record (03 R47, R48). -/
def stagingHeldByOther (z : Zone) (s : State) : Bool :=
  match s.splice z.other with
  | some r => r.state != .waiting
  | none => false

/-- The refill flag, recomputed (02 R39). -/
def refillOf (z : Zone) (s : State) : Bool :=
  let c := s.ctl z
  if c.state = .idle ∨ c.state = .cueing then false
  else if c.setup.target ≤ cover z s then false
  else if cover z s < c.setup.lowWater then true
  else s.rsc.refill.get z

/-- The demand class, recomputed: the table of 02 R39, in whose place 03 R48's table stands for a zone with a splice
record. -/
def demandOf (z : Zone) (s : State) : Option Nat :=
  let c := s.ctl z
  if c.state = .idle ∨ isOpen z s = false ∨ 448 ≤ (s.lane z).entries.length then none
  else
    match s.splice z with
    | some r =>
      if r.state = .waiting ∧ stagingHeldByOther z s = false then
        some (if cover z s < c.setup.critical then 1 else 4)
      else none
    | none =>
      if c.state = .cueing then some 2
      else if cover z s < c.setup.critical ∨ c.state = .starved then some 3
      else if refillOf z s then some 5
      else none

/-- Both zones' refill flags and demand classes, recomputed (02 R39). -/
def refresh (s : State) : State :=
  { s with rsc := { s.rsc with
      refill := ⟨refillOf .a s, refillOf .b s⟩
      demand := ⟨demandOf .a s, demandOf .b s⟩ } }

/-! ## Issuing a run -/

/-- The zone a grant goes to where both are at equal class: the one whose priority is HIGH, or, at equal priority, the
one that did not own the previous run (02 R40). -/
def tieBreak (s : State) : Zone :=
  match (s.ctl .a).setup.priority, (s.ctl .b).setup.priority with
  | .high, .low => .a
  | .low, .high => .b
  | _, _ =>
    match s.rsc.prevOwner with
    | none => .a
    | some z => z.other

/-- The zone the pickup goes to (02 R40). -/
def granted (s : State) : Option Zone :=
  match s.rsc.demand.a, s.rsc.demand.b with
  | none, none => none
  | some _, none => some .a
  | none, some _ => some .b
  | some a, some b => if a < b then some .a else if b < a then some .b else some (tieBreak s)

/-- The effective overlap o of a splice record (03 R49). -/
def effectiveOverlap (r : SpliceRec) : Nat := min r.overlap r.tail

/-- A count lowered so that the run reads no sector at or beyond the lead-out, and never below 1 (02 R41). -/
def boundByLeadOut (count wanted : Nat) (s : State) : Nat :=
  match s.ttb.leadOut with
  | some l => max 1 (min count (l - wanted))
  | none => max 1 count

/-- The purpose, wanted address and count of the run a grant gives a zone (02 R22, R41, 03 R49). -/
def runPlan (z : Zone) (s : State) : Purpose × Nat × Nat :=
  let su := (s.ctl z).setup
  let t := (s.lane z).tail.getD 0
  match s.splice z with
  | some r => (.reread, r.tail - effectiveOverlap r, effectiveOverlap r + 1 + 16)
  | none =>
    if (s.ctl z).state = .cueing then (.cue, t, min 64 (su.resume + 8 - cover z s))
    else (.refill, t, max 1 (min 64 (su.target - cover z s)))

/-- The run record a grant gives a zone (02 R20, R22). -/
def newRun (z : Zone) (s : State) : Run :=
  let plan := runPlan z s
  let wanted := plan.2.1
  let row := rowOfAddress s wanted
  let settle := min row.settle wanted
  { id := s.rsc.nextId, wanted := wanted, start := wanted - settle
    count := boundByLeadOut plan.2.2 wanted s
    speed := row.speed, owner := z, purpose := plan.1, settleLeft := settle
    received := 0, expected := wanted, absentStreak := 0, backStreak := 0, addressRead := false }

/-- A lane's current-run count returns to 0 when a run is issued (01 R4, 02 R22). -/
def Lane.runIssued (l : Lane) : Lane := { l with runCount := 0 }

/-- The splice record of a zone whose REREAD run is issued (03 R49). -/
def rereadIssued (r : SpliceRec) : SpliceRec :=
  { r with state := .reading, attemptsMade := min 65535 (r.attemptsMade + 1) }

/-- RSC issues a run for a zone (02 R22). -/
def issueRun (z : Zone) (s : State) : State :=
  let r := newRun z s
  let t := { s with
    rsc := { s.rsc with run := some r, nextId := (s.rsc.nextId + 1) % 16, stall := some s.rsc.firstLimit }
    sst := { s.sst with lanes := ⟨s.sst.lanes.a.runIssued, s.sst.lanes.b.runIssued⟩ } }
  placeRequest (.readRun r.id r.start r.speed (r.settleLeft + r.count))
    (t.setSplice z ((t.splice z).map rereadIssued))

/-- RSC makes a grant if it is idle and reading is allowed (02 R40); an issued REREAD run changes the classes. -/
def grant (s : State) : State :=
  if s.rsc.run.isNone && readingAllowed s then
    match granted s with
    | none => s
    | some z => refresh (issueRun z s)
  else s

/-! ## The end of a run -/

/-- A READ RUN placed within this event at the idle line has been sent at once, unless another frame of the event was
taken first (09 R153). LOG 5. -/
def sentByNow (id : Nat) (s : State) : State := if readRunWaits id s then lineStart s else s

/-- Step 2 of a run's end: a READ RUN that still waits is removed, and otherwise a READ HALT is placed where the end's
cause gives one (02 R23). -/
def haltRun (halt : Bool) (id : Nat) (s : State) : State :=
  if readRunWaits id s then withdrawReadRun id s
  else if halt then placeRequest (.readHalt id) s
  else s

/-- The stall timer stops, the run's record goes, and its owner is noted (02 R23). -/
def forgetRun (r : Run) (s : State) : State :=
  { s with rsc := { s.rsc with run := none, stall := none, prevOwner := some r.owner } }

/-- Steps 1 to 3 of a run's end: its READ RUN or READ HALT is dealt with too (02 R23). -/
def dropRun (halt : Bool) (s : State) : State :=
  match s.rsc.run with
  | none => s
  | some r => haltRun halt r.id (sentByNow r.id (forgetRun r s))

/-- A run ends (02 R23): steps 1 to 3, the consequences of its cause (step 4), then a new grant (step 5), which sees the
classes as the consequences left them. LOG 12. -/
def endRun (halt : Bool) (consequences : State → State) (s : State) : State :=
  grant (refresh (consequences (dropRun halt s)))

/-- A run is cut, or ends with no failure and no splice (02 R23). -/
def cutRun (s : State) : State := endRun true id s

/-- The outstanding run is preemptible and the other zone is in class 1, 2 or 3 (02 R42). -/
def preempts (s : State) : Bool :=
  match s.rsc.run with
  | none => false
  | some r =>
    r.purpose == .refill
      && (match s.rsc.demand.get r.owner with | none => true | some c => c == 5)
      && (match s.rsc.demand.get r.owner.other with | none => false | some c => c ≤ 3)

/-- RSC recomputes the demand classes (02 R39). On a change of a class it makes a grant if it is idle (R40), or cuts a
run that is preempted (R42). LOG 13. -/
def review (s : State) : State :=
  let t := refresh s
  if t.rsc.demand = s.rsc.demand then t
  else if t.rsc.run.isNone then grant t
  else if preempts t then cutRun t
  else t

/-- The stall timer is armed again with the next-sector limit by a sector of the run (02 R34). -/
def rearm (s : State) : State := { s with rsc := { s.rsc with stall := some s.rsc.nextLimit } }

/-- A sector stored or staged returns the run failure count to 0 (02 R36). -/
def clearFailures (s : State) : State := { s with rsc := { s.rsc with failures := 0 } }

/-- MECH-FAULT is cleared, the failure count with it, and a grant is made if reading is then allowed (02 R37). -/
def clearMechFault (s : State) : State :=
  if s.rsc.mechFault then
    grant (refresh { s with rsc := { s.rsc with mechFault := false, failures := 0 } })
  else s

/-- A run failure is counted; the third sets MECH-FAULT and makes its report (02 R36, 11 R162). -/
def countFailure (r : Run) (kind : FailKind) (s : State) : State :=
  let n := s.rsc.failures + 1
  if n < 3 then { s with rsc := { s.rsc with failures := n } }
  else
    post (.mechFault r.owner kind r.wanted)
      { s with rsc := { s.rsc with failures := 3, mechFault := true } }

/-- RSC cuts the outstanding CUE or REFILL run when its owner lane's tail has moved from E, or the lane is no longer
open (02 R32). -/
def checkOwnerLane (s : State) : State :=
  match s.rsc.run with
  | none => s
  | some r =>
    if r.purpose ≠ .reread ∧ ((s.lane r.owner).tail ≠ some r.expected ∨ isOpen r.owner s = false) then cutRun s else s

end Sys2Proof.Machine
end

