-- ==== Sys2Proof/Machine/Splice.lean ====
section
/-! DEFINITION. The Splice Unit's own operations: the record and its end, staging, the reference window, and the
content search (03 R44 to R56, R62). -/

namespace Sys2Proof.Machine

/-! ## Staging and the record -/

/-- The granule a splice's decisions read: granule(T − 1), or granule 0 when T is 0 (03 R46). -/
def spliceGranule (t : Nat) : Nat := granuleOf (t - 1)

/-- Staging is flushed, every staged slot released in staging order, and a search in flight is aborted (03 R63, R65). -/
def flushStaging (s : State) : State :=
  let t := dropHolds s.spl.staging s
  { t with spl := { t.spl with staging := [], search := none } }

/-- Whether a zone's record holds staging (03 R47). -/
def holdsStaging (z : Zone) (s : State) : Bool :=
  match s.splice z with
  | some r => r.state != .waiting
  | none => false

/-- The outstanding run is the REREAD run of the zone. -/
def ownsReread (z : Zone) (s : State) : Bool :=
  match s.rsc.run with
  | some r => r.purpose == .reread && r.owner == z
  | none => false

/-- The zone's outstanding REREAD run, if any, is cut with a READ HALT (03 R61). -/
def cutReread (z : Zone) (s : State) : State := if ownsReread z s then cutRun s else s

/-- A splice ends: its record is discarded and a SPLICE report posted (03 R62). -/
def endSplice (z : Zone) (outcome : SpliceOutcome) (joinAddress joinOffset : Option Nat) (matchOffset : Option Int)
    (s : State) : State :=
  match s.splice z with
  | none => s
  | some r =>
    post (.splice ⟨z, r.cause, outcome, r.tail, r.cover, r.attemptsMade, joinAddress, joinOffset, matchOffset⟩)
      (s.setSplice z none)

/-- A splice ends ABANDONED (03 R66): where the record held staging, the search is aborted, staging flushed and an
outstanding REREAD run cut, before the record is discarded. -/
def abandonSplice (z : Zone) (s : State) : State :=
  if (s.splice z).isNone then s
  else
    endSplice z .abandoned none none none
      (if holdsStaging z s then cutReread z (flushStaging s) else s)

/-- SPL captures a splice record for a zone whose lane has been rewound (03 R46). -/
def captureSplice (z : Zone) (cause : SpliceCause) (s : State) : State :=
  let t := (s.lane z).tail.getD 0
  let row := rowOfGranule s (spliceGranule t)
  s.setSplice z (some ⟨cause, t, cover z s, row.retry, row.overlap, 0, .waiting⟩)

/-- The rewind count at a trigger (03 R45): four for ADDRESS-LOSS, otherwise the row's for granule(A − 1). -/
def rewindCount (z : Zone) (cause : SpliceCause) (s : State) : Nat :=
  match cause with
  | .addressLoss => 4
  | _ => (rowOfGranule s (spliceGranule ((s.lane z).tail.getD 0))).rewind

/-- The splice path for the owner of a run that has been abandoned (03 R44); the grant follows it (02 R23). -/
def splicePath (z : Zone) (cause : SpliceCause) (s : State) : State :=
  captureSplice z cause (rewind z (rewindCount z cause s) s)

/-! ## The reference window -/

/-- The pairs of a sector record from one position to 587, each with its flag. -/
def markedPairs (rec : Sector) (lo : Nat) : List MarkedPair :=
  ((List.range 588).drop lo).map fun i => ⟨rec.pairs.getD i SamplePair.zero, flaggedAt rec.flags i⟩

/-- The last pairs of a lane gathered backward into `acc`, over the entries last first, until `w` are held or a seam
other than NONE has been passed (03 R53). `lo` gives an entry's first pair that is still ahead. -/
def gatherWindow (w : Nat) (lo : Entry → Nat) (recOf : Nat → Sector) : List Entry → List MarkedPair → List MarkedPair
  | [], acc => acc
  | e :: es, acc =>
    let avail := markedPairs (recOf e.slot) (lo e)
    let got := avail.drop (avail.length - (w - acc.length)) ++ acc
    if got.length < w ∧ e.seam = .none then gatherWindow w lo recOf es got else got

/-- The first pair of an entry that is still ahead: in the head entry the play position, otherwise the entry's first
pair offset (03 R53). -/
def firstAhead (l : Lane) (e : Entry) : Nat :=
  match l.entries with
  | h :: _ => if h.slot = e.slot then l.playPos.getD e.offset else e.offset
  | [] => e.offset

/-- The reference window gathered from a zone's lane; shorter than `w` where the lane has none (03 R53). -/
def windowOf (z : Zone) (w : Nat) (s : State) : List MarkedPair :=
  let l := s.lane z
  gatherWindow w (firstAhead l) (fun n => (s.slot n).record) l.entries.reverse []

/-- The usable count U: the pairs of the window that are not flagged (03 R53). -/
def usable (ref : List MarkedPair) : Nat := (ref.filter fun p => !p.flagged).length

/-- Whether there is a reference window to search for (03 R52). -/
def searchable (z : Zone) (w : Nat) (ref : List MarkedPair) (s : State) : Bool :=
  !(s.lane z).entries.isEmpty
    && (s.lane z).pendingSeam != .track && (s.lane z).pendingSeam != .gap
    && ref.length == w && w / 2 ≤ usable ref

/-! ## The search -/

/-- The search stream: the first o + 1 staged sectors end to end (03 R54). -/
def searchStream (o : Nat) (s : State) : List MarkedPair :=
  (s.spl.staging.take (o + 1)).flatMap fun n => markedPairs (s.slot n).record 0

/-- The magnitude of the difference of two samples, as plain signed whole numbers (03 R55). -/
def sampleDiff (x y : Sample) : Nat := (x.toInt - y.toInt).natAbs

/-- Whether one position scores (03 R55). -/
def pairScores (tol : Nat) (r q : MarkedPair) : Bool :=
  !r.flagged && !q.flagged && sampleDiff r.pair.left q.pair.left ≤ tol && sampleDiff r.pair.right q.pair.right ≤ tol

/-- The score of the candidate at the head of a stream (03 R55). -/
def scoreHere (tol : Nat) : List MarkedPair → List MarkedPair → Nat
  | r :: rs, q :: qs => (if pairScores tol r q then 1 else 0) + scoreHere tol rs qs
  | _, _ => 0

/-- How far a candidate lies from the expected position (03 R56). -/
def candidateDistance (p : Nat) (expected : Int) : Nat := ((p : Int) - expected).natAbs

/-- Whether candidate `(p, score)` beats the best so far, the candidates being taken in rising order of p (03 R56). -/
def beats (expected : Int) (p score : Nat) (best : Nat × Nat) : Bool :=
  best.2 < score || (score == best.2 && candidateDistance p expected < candidateDistance best.1 expected)

/-- The best candidate over the positions from `p` on (03 R56): `left` candidates remain, the stream standing at `p`. -/
def bestFrom (ref : List MarkedPair) (tol : Nat) (expected : Int) : Nat → Nat → List MarkedPair → Nat × Nat → Nat × Nat
  | 0, _, _, best => best
  | left + 1, p, st, best =>
    let score := scoreHere tol ref st
    bestFrom ref tol expected left (p + 1) st.tail (if beats expected p score best then (p, score) else best)

/-- The best candidate and its score: position 0 scored first, then the rest in rising order (03 R54, R56). -/
def bestCandidate (ref : List MarkedPair) (tol : Nat) (expected : Int) (st : List MarkedPair) : Nat × Nat :=
  bestFrom ref tol expected (st.length - ref.length) 1 st.tail (0, scoreHere tol ref st)

/-- The expected position p_exp for an effective overlap and a window of `w` pairs, a whole number (03 R54). R54 has o at
least 1 wherever there is a window; a rewind to address 0 leaves T = 0, so o = 0, and its formula then gives −w (LOG 40). -/
def expectedPosition (o w : Nat) : Int := (o : Int) * 588 - w

/-- The outcome of a search: the accepted best candidate, or none where the attempt has failed (03 R56). -/
def searchOutcome (q : Search) (o : Nat) (s : State) : Option Nat :=
  let best := bestCandidate q.window q.tolerance (expectedPosition o q.window.length) (searchStream o s)
  if usable q.window ≤ best.2 + q.mismatches then some best.1 else none

/-- The staged sectors' read addresses, in staging order. -/
def stagedAddresses (s : State) : List (Option Nat) := s.spl.staging.map fun n => (s.slot n).record.readAddress

end Sys2Proof.Machine
end

