-- ==== Sys2Proof/Machine/Zones.lean ====
section
/-! DEFINITION. The zone controllers' operations: the questions asked of the track table (07 R127), choosing and arming
NEXT, read-over and swap, the zone states and their tests, cueing, withdrawal, and the end of a program (06). -/

namespace Sys2Proof.Machine

/-! ## What the table gives -/

/-- Track `n`'s entry, if the track is in the table: the table is CLOSED and holds it (07 R127). -/
def Ttb.track (t : Ttb) (n : Nat) : Option Track :=
  if t.state = .closed then t.entries.find? fun e => e.number == n else none

/-- Whether track `n` is an AUDIO track in the table. -/
def Ttb.playable (t : Ttb) (n : Nat) : Bool :=
  match t.track n with
  | some e => e.kind == .audio
  | none => false

/-- Track `n`'s start and end: the end is the next entry's start, or the lead-out for the last (07 R127). -/
def Ttb.bounds (t : Ttb) (n : Nat) : Option (Nat × Nat) :=
  if t.state = .closed then
    match t.entries.dropWhile fun e => e.number != n with
    | e :: f :: _ => some (e.start, f.start)
    | [e] => some (e.start, t.leadOut.getD 0)
    | [] => none
  else none

/-- The lowest AUDIO track above `n`: the entries rise by track number (07 R121, R127). -/
def Ttb.lowestAbove (t : Ttb) (n : Nat) : Option Nat :=
  (t.entries.find? fun e => e.kind == .audio && n < e.number).map (·.number)

/-- The lowest AUDIO track in the table (07 R127). -/
def Ttb.lowest (t : Ttb) : Option Nat := (t.entries.find? fun e => e.kind == .audio).map (·.number)

/-- The highest AUDIO track below `n` (07 R127). -/
def Ttb.highestBelow (t : Ttb) (n : Nat) : Option Nat :=
  (t.entries.reverse.find? fun e => e.kind == .audio && e.number < n).map (·.number)

/-! ## The choice of NEXT -/

/-- Table order, the third step of the choice (06 R106). -/
def orderChoice (t : Ttb) (mode : RepeatMode) (ref : Nat) : Option Nat :=
  match t.lowestAbove ref with
  | some n => some n
  | none => if mode = .list then t.lowest else none

/-- The choice of a NEXT track from a reference track, with its origin: the first step that gives a track decides, and
while the table is not CLOSED there is none (06 R106). A step whose track is no AUDIO track of the table gives none
(LOG 18). -/
def chooseNext (z : Zone) (ref : Nat) (s : State) : Option (Nat × Origin) :=
  let c := s.ctl z
  if s.ttb.state ≠ .closed then none
  else if c.repeatMode = .track ∧ s.ttb.playable ref = true then some (ref, .repeatTrack)
  else
    match c.program.head?.filter s.ttb.playable with
    | some n => some (n, .program)
    | none => (orderChoice s.ttb c.repeatMode ref).map fun n => (n, .order)

/-- The NEXT context for a chosen track; contiguous when it starts at `stop` (06 R101). -/
def nextCtx (choice : Nat × Origin) (stop : Nat) (s : State) : Option NextCtx :=
  (s.ttb.bounds choice.1).map fun b => ⟨choice.1, b.1, b.2, b.1 == stop, choice.2⟩

/-- The NEXT context the zone controller chooses from a reference track that ends at `stop`. -/
def chosenNext (z : Zone) (ref stop : Nat) (s : State) : Option NextCtx :=
  (chooseNext z ref s).bind fun c => nextCtx c stop s

/-- The program head leaves the list, and under repeat LIST is appended at the tail again (06 R107, R108, R116). -/
def popProgram (z : Zone) (s : State) : State :=
  let c := s.ctl z
  match c.program with
  | [] => s
  | n :: rest => s.setCtl z { c with program := if c.repeatMode = .list then rest ++ [n] else rest }

/-- What becomes of the program list when a NEXT of this origin is used up. -/
def consumeOrigin (z : Zone) (o : Origin) (s : State) : State :=
  match o with
  | .program => popProgram z s
  | _ => s

/-! ## Arming and read-over -/

/-- The lane as arming leaves it (01 R8, 06 R106). -/
def Lane.armed (l : Lane) (n : NextCtx) : Lane :=
  { l with
    appending := some n.track
    boundary := .pending
    tail := if n.contiguous then l.tail else some n.start
    pendingSeam := if n.contiguous then l.pendingSeam else .track }

/-- The lane as a read-over that found a replacement leaves it (06 R108). -/
def Lane.readOver (l : Lane) (n : NextCtx) : Lane :=
  { l with
    appending := some n.track
    tail := if n.contiguous then l.tail else some n.start
    pendingSeam := if n.contiguous ∨ l.pendingSeam = .gap then l.pendingSeam else .track }

/-- NEXT is armed where the zone is not IDLE, NEXT is absent, the lane's tail stands at ACTIVE's end, and a track is
found (06 R106). -/
def armNext (z : Zone) (s : State) : State :=
  let c := s.ctl z
  match c.active with
  | none => s
  | some a =>
    if c.state = .idle ∨ c.next.isSome = true ∨ (s.lane z).tail ≠ some a.stop then s
    else
      match chosenNext z a.track a.stop s with
      | none => s
      | some n =>
        (s.setCtl z { c with next := some n, readOverEnd := none }).setLane z ((s.lane z).armed n)

/-- A NEXT whose end the lane's tail has reached with the boundary still pending is replaced or discarded (06 R108). -/
def readOver (z : Zone) (n : NextCtx) (s : State) : State :=
  let t := consumeOrigin z n.origin s
  match chosenNext z n.track n.stop t with
  | some m => (t.setCtl z { t.ctl z with next := some m }).setLane z ((t.lane z).readOver m)
  | none =>
    (t.setCtl z { t.ctl z with next := none, readOverEnd := some n.stop }).setLane z
      { t.lane z with boundary := .absent }

/-- The zone controller answers a lane's tail that has moved: it arms NEXT, or deals with a NEXT read over. -/
def armOrReadOver (z : Zone) (s : State) : State :=
  match (s.ctl z).next with
  | none => armNext z s
  | some n => if (s.lane z).boundary = .pending ∧ (s.lane z).tail = some n.stop then readOver z n s else s

/-! ## Zone states -/

/-- A zone enters a state: PAUSE and STARVED follow it (05 R93, R95), and a ZONE-STATE report is posted (06 R119). -/
def enterState (z : Zone) (new : ZoneState) (cause : ZoneCause) (s : State) : State :=
  let old := (s.ctl z).state
  let t := s.setCtl z { s.ctl z with state := new }
  let t := t.setConc z
    { t.conc z with causes := { (t.conc z).causes with pause := new == .paused, starved := new == .starved } }
  post (.zoneState z old new (activeTrack z t) (position z t) cause) t

/-- A zone enters IDLE: both contexts are discarded and CNE's values set (05 R97, 06 R101). -/
def enterIdle (z : Zone) (cause : ZoneCause) (s : State) : State :=
  enterState z .idle cause
    (silence z (s.setCtl z { s.ctl z with active := none, next := none, readOverEnd := none }))

/-- The outstanding CUE or REFILL run of a zone whose lane has been flushed is handed to the other zone, or cut
(02 R33). -/
def handOver (z : Zone) (s : State) : State :=
  match s.rsc.run with
  | none => s
  | some r =>
    if r.owner = z ∧ r.purpose ≠ .reread then
      if (s.lane z.other).tail = some r.expected ∧ 0 < (s.lane z.other).runCount ∧ isOpen z.other s = true then
        s.setRun (some { r with owner := z.other, purpose := .refill })
      else cutRun s
    else s

/-- A flush with what it brings about: the splice ends ABANDONED, an outstanding run is handed over or cut, and RSC
recomputes the classes, since the lane is open no longer (01 R17, 02 R33, R39, 03 R66). The lane's slots are released before
those of staging (LOG 43). -/
def flushWith (z : Zone) (s : State) : State := review (handOver z (abandonSplice z (flushLane z s)))

/-- The zone ends its program (06 R105). -/
def endProgram (z : Zone) (s : State) : State :=
  let t := flushWith z s
  enterIdle z .endOfProgram (post (.endOfProgram z (activeTrack z t)) t)

/-- The lane holds the rest of the ACTIVE track (06 R103). -/
def holdsRest (z : Zone) (s : State) : Bool :=
  match (s.lane z).entries with
  | [] => false
  | e :: _ => !isOpen z s || ((s.ctl z).next.isSome && (s.lane z).boundary != .entry e.slot)

/-- A zone's lane can give nothing more: it is empty and not open, and NEXT is not armed (06 R105). -/
def runOut (z : Zone) (s : State) : Bool :=
  (s.lane z).entries.isEmpty && !isOpen z s && (s.ctl z).next.isNone

/-- The tests of a CUEING or STARVED zone, made at each cover report and each arming (06 R103, R104, R105). -/
def zoneTests (z : Zone) (s : State) : State :=
  if (s.ctl z).state = .cueing ∨ (s.ctl z).state = .starved then
    if (s.ctl z).setup.resume ≤ cover z s ∨ holdsRest z s = true then enterState z .playing .cover s
    else if runOut z s then endProgram z s
    else s
  else s

/-- A splice whose lane's tail has moved away from T ends ABANDONED (03 R66). -/
def abandonIfMoved (z : Zone) (s : State) : State :=
  match s.splice z with
  | none => s
  | some r => if (s.lane z).tail = some r.tail then s else abandonSplice z s

/-- What follows a change of a lane's tail: arming or read-over, the end of a splice the arming has moved the lane away
from, and the zone's tests. -/
def settleTail (z : Zone) (s : State) : State := zoneTests z (abandonIfMoved z (armOrReadOver z s))

/-! ## Cue, swap, withdrawal -/

/-- A track's bounds from the table, or the ones given where the table does not hold it (LOG 19). -/
def boundsOr (track : Nat) (fallback : Nat × Nat) (s : State) : Nat × Nat := (s.ttb.bounds track).getD fallback

/-- The zone is cued at an address within a track (06 R103): flush, contexts, lane (01 R8), CUEING. -/
def cue (z : Zone) (track : Nat) (bounds : Nat × Nat) (a : Nat) (s : State) : State :=
  let t := flushWith z s
  let t := t.setCtl z
    { t.ctl z with active := some ⟨track, bounds.1, bounds.2⟩, next := none, readOverEnd := none }
  let t := t.setLane z
    { t.lane z with tail := some a, appending := some track, pendingSeam := .none, boundary := .absent }
  review (zoneTests z (enterState z .cueing .command (silence z t)))

/-- The swap, at the first pair taken from the boundary entry (06 R107). In a stop fade too it posts TRACK-CHANGE alone: R114
counts a swap among the changes that post a ZONE-STATE report, while R107 has it touch no state and R119 gives it no cause
(LOG 39). -/
def swap (z : Zone) (s : State) : State :=
  match (s.ctl z).next with
  | none => s
  | some n =>
    let old := activeTrack z s
    let t := s.setCtl z { s.ctl z with active := some ⟨n.track, n.start, n.stop⟩ }
    let t := consumeOrigin z n.origin t
    let t := t.setCtl z { t.ctl z with next := none }
    checkOwnerLane (settleTail z (post (.trackChange z old n.track n.start n.contiguous) t))

/-- Whether the outstanding CUE or REFILL run is the zone's and its lane's tail has moved away from E (02 R32). -/
def tailLeftRun (z : Zone) (s : State) : Bool :=
  match s.rsc.run with
  | none => false
  | some r => r.owner == z && r.purpose != .reread && (s.lane z).tail != some r.expected

/-- The rest of a withdrawal after its trim: the splice's fate, NEXT discarded, the new choice (06 R109, 03 R66). -/
def withdrawRest (z : Zone) (s : State) : State :=
  let t := inOrder (abandonIfMoved z s)
  settleTail z (t.setCtl z { t.ctl z with next := none })

/-- An armed NEXT is withdrawn, the edit having been applied (06 R109); nothing is withdrawn while none is armed. The
grant that follows a cut sees the lane as the new choice leaves it (LOG 12). -/
def withdraw (z : Zone) (s : State) : State :=
  match (s.ctl z).next, (s.ctl z).active with
  | some _, some a =>
    let t := trimLane z a.track a.stop s
    review (if tailLeftRun z t then endRun true (withdrawRest z) t else checkOwnerLane (withdrawRest z t))
  | _, _ => s

/-- The choice is retried (06 R106). An arming may move the lane's tail, and RSC holds an outstanding run against it (02
R32). -/
def retryChoice (z : Zone) (s : State) : State := review (checkOwnerLane (settleTail z s))

end Sys2Proof.Machine
end

