-- ==== Sys2Proof/Machine/Repair.lean ====
section
/-! DEFINITION. The ways a splice attempt resolves: the VERIFIED join, the failed and the aborted attempt, the UNVERIFIED
and GAP fallbacks, what becomes of the run, and how staging takes a sector (03 R50 to R66). -/

namespace Sys2Proof.Machine

/-! ## Moving staged sectors -/

/-- A staged sector can be moved: it makes no 449th entry and its address is below the end of the appending track (03
R57, R59). -/
def canMove (z : Zone) (a : Nat) (s : State) : Bool :=
  (s.lane z).entries.length < 448
    && (match appendingEnd z s with
      | some e => a < e
      | none => false)

/-- A staged slot becomes a lane entry, its holder count staying as it was (01 R2, 03 R57). -/
def moveOne (z : Zone) (slot a offset : Nat) (seam : Seam) (s : State) : State :=
  s.setLane z ((s.lane z).append ⟨slot, a, (s.lane z).appending.getD 0, offset, seam⟩)

/-- Staged slots are moved at consecutive addresses, the first with the given offset and seam, for as long as they can
be; the number moved and the state after (03 R57, R59). -/
def moveStaged (z : Zone) : List Nat → Nat → Nat → Seam → State → Nat × State
  | [], _, _, _, s => (0, s)
  | n :: ns, a, offset, seam, s =>
    if canMove z a s then
      let r := moveStaged z ns (a + 1) 0 .none (moveOne z n a offset seam s)
      (r.1 + 1, r.2)
    else (0, s)

/-- What becomes of the zone's outstanding REREAD run at a join or UNVERIFIED fallback: converted to REFILL if every
staged sector from the first moved onward was moved and the lane is open with its tail just past the last moved;
cut otherwise (03 R61). -/
def dealRun (z : Zone) (whole : Bool) (tail : Nat) (s : State) : State :=
  match s.rsc.run with
  | none => s
  | some r =>
    if r.purpose = .reread ∧ r.owner = z then
      if whole = true ∧ isOpen z s = true ∧ (s.lane z).tail = some tail then
        s.setRun (some { r with
          purpose := .refill, expected := tail, settleLeft := 0, absentStreak := 0, backStreak := 0
          addressRead := true })
      else cutRun s
    else s

/-- A converted run is preemptible from this moment (03 R61, 02 R42). -/
def preemptTest (s : State) : State := if preempts s then cutRun s else s

/-- Staged sectors are moved into the zone's lane from staging index `k` on, those of `slots`, the first at address `a`;
the others are released, those before index `k` first (LOG 38), and the splice ends (03 R57, R59, R62). A join that can
move no sector leaves the tail (LOG 16). RSC's classes are recomputed once, after all the moves (LOG 37). -/
def joinStaged (z : Zone) (k : Nat) (slots : List Nat) (a offset : Nat) (seam : Seam)
    (report : Nat → State → State) (s : State) : State :=
  let staged := s.spl.staging
  let m := moveStaged z slots a offset seam s
  let t := dropHolds (staged.take k ++ staged.drop (k + m.1)) m.2
  let t := { t with spl := { t.spl with staging := [], search := none } }
  let t := if m.1 = 0 then t else armOrReadOver z t
  let t := zoneTests z (report m.1 t)
  preemptTest (review (dealRun z (m.1 != 0 && m.1 == (staged.drop k).length) (a + m.1) t))

/-- The VERIFIED join at accepted position `p` (03 R57): `o` is the effective overlap and `w` the window length. -/
def verifiedJoin (z : Zone) (r : SpliceRec) (p w : Nat) (s : State) : State :=
  let o := effectiveOverlap r
  let c := p + w
  let k := c / 588
  let a := r.tail - o + k
  joinStaged z k (s.spl.staging.drop k) a (c % 588) .verified
    (fun moved =>
      endSplice z .verified (if moved = 0 then none else some a) (if moved = 0 then none else some (c % 588))
        (some ((p : Int) - expectedPosition o w)))
    s

/-- The staging index of the first staged sector whose read address is T (03 R59). -/
def indexOfTail (t : Nat) (s : State) : Nat := (stagedAddresses s).findIdx fun a => a == some t

/-- The slots whose read addresses follow on from `a`, for as long as they do (03 R59). -/
def readInStep (s : State) : List Nat → Nat → List Nat
  | [], _ => []
  | n :: ns, a => if (s.slot n).record.readAddress = some a then n :: readInStep s ns (a + 1) else []

/-- The UNVERIFIED fallback (03 R59). -/
def unverifiedJoin (z : Zone) (r : SpliceRec) (s : State) : State :=
  let k := indexOfTail r.tail s
  joinStaged z k (readInStep s (s.spl.staging.drop k) r.tail) r.tail 0 .unverified
    (fun _ => endSplice z .unverified (some r.tail) none none) s

/-! ## The GAP fallback -/

/-- The lane's tail is stepped over a gap: the tail address is bounded by the end of the appending track, and the pending
seam becomes GAP (02 R30, 03 R60). -/
def stepOver (z : Zone) (a : Nat) (s : State) : State :=
  let tail := match appendingEnd z s with
    | some e => min a e
    | none => a
  s.setLane z { s.lane z with tail := some tail, pendingSeam := .gap }

/-- The GAP fallback (03 R60). The report's join address is the tail address as step 3 sets it. -/
def gapFallback (z : Zone) (r : SpliceRec) (s : State) : State :=
  let t := flushStaging s
  let t := stepOver z (r.tail + (rowOfGranule t (spliceGranule r.tail)).gap) t
  let t := endSplice z .gap (t.lane z).tail none none (armOrReadOver z t)
  review (cutReread z (zoneTests z t))

/-- The fallback falls due: UNVERIFIED if staging holds a sector whose read address is T, otherwise GAP (03 R59, R60). -/
def fallback (z : Zone) (r : SpliceRec) (s : State) : State :=
  if some r.tail ∈ stagedAddresses s then unverifiedJoin z r s else gapFallback z r s

/-! ## Failed and aborted attempts -/

/-- A record whose attempt has failed or been aborted with attempts left: overlap up by one, WAITING (03 R58, R63). -/
def SpliceRec.retried (r : SpliceRec) : SpliceRec := { r with overlap := min 8 (r.overlap + 1), state := .waiting }

/-- The attempts remaining fall by one unless they are 0 (03 R58, R63). -/
def SpliceRec.spent (r : SpliceRec) : SpliceRec := { r with attemptsLeft := r.attemptsLeft - 1 }

/-- A failed attempt (03 R58). With attempts left the run is cut and the pickup granted at once (R61, 02 R23, R40), so the
next REREAD may be outstanding as the event ends, where R67 has the record WAITING with no run (LOG 32). -/
def failedAttempt (z : Zone) (s : State) : State :=
  match s.splice z with
  | none => s
  | some r =>
    let t := healthEvent (spliceGranule r.tail) 16 .spliceFail s
    let r := r.spent
    if 0 < r.attemptsLeft then review (cutReread z ((flushStaging t).setSplice z (some r.retried)))
    else fallback z r (t.setSplice z (some r))

/-- An aborted attempt, counted without a surface event (03 R63). Its run, if any, has ended. -/
def abortAttempt (z : Zone) (s : State) : State :=
  match s.splice z with
  | none => s
  | some r =>
    if r.state = .waiting then s
    else
      let t := flushStaging s
      let r := r.spent
      if 0 < r.attemptsLeft then t.setSplice z (some r.retried) else gapFallback z r (t.setSplice z (some r))

/-- An attempt aborted without being counted, for one zone's record (03 R65). -/
def keepUncountedOf (z : Zone) (s : State) : State :=
  match s.splice z with
  | none => s
  | some r => if r.state = .waiting then s else (flushStaging s).setSplice z (some { r with state := .waiting })

/-- A TRAY-HOLD or DISC-OUT reaches SPL (03 R65). -/
def keepUncounted (s : State) : State := keepUncountedOf .b (keepUncountedOf .a s)

/-- The zone's REREAD run has ended other than by a mark or a flush: while READING the attempt is aborted (03 R64); a
VERIFIED join that waits for a sector is dropped as a failed attempt (03 R57). -/
def rereadEnded (z : Zone) (s : State) : State :=
  match s.splice z with
  | none => s
  | some r =>
    match r.state with
    | .waiting => s
    | .reading => abortAttempt z s
    | .searching =>
      match s.spl.search with
      | some q => if q.found.isSome then failedAttempt z s else s
      | none => s

/-! ## The decision, and what staging takes -/

/-- The attempt's decision: the search starts, or the fallback is taken at once (03 R52). -/
def startDecision (z : Zone) (r : SpliceRec) (s : State) : State :=
  let row := rowOfGranule s (spliceGranule r.tail)
  let ref := windowOf z row.window s
  if searchable z row.window ref s then
    review
      ({ s with spl := { s.spl with search := some ⟨z, ref, row.mismatches, row.tolerance, none⟩ } }.setSplice z
        (some { r with state := .searching }))
  else fallback z r s

/-- Whether the staged sector a join at `p` begins in has been staged (03 R57). -/
def continuationStaged (q : Search) (p : Nat) (s : State) : Bool :=
  (p + q.window.length) / 588 < s.spl.staging.length

/-- A staged sector has joined staging: it may complete the search size (03 R52) or a join that waits for it (R57). -/
def stagedArrived (z : Zone) (s : State) : State :=
  match s.splice z with
  | none => s
  | some r =>
    match r.state with
    | .waiting => s
    | .reading => if s.spl.staging.length = effectiveOverlap r + 1 then startDecision z r s else s
    | .searching =>
      match s.spl.search with
      | none => s
      | some q =>
        match q.found with
        | none => s
        | some p => if continuationStaged q p s then verifiedJoin z r p q.window.length s else s

/-- A REREAD sector past the settle is handed to SPL: staged, or dropped with the run halted where staging is full or no
slot is free (03 R50, R51). -/
def stageSector (z : Zone) (f : SectorFrame) (s : State) : State :=
  if 12 ≤ s.spl.staging.length then endRun true (rereadEnded z) s
  else
    match takeSlot (recordOf f) s with
    | none => endRun true (rereadEnded z) (setOverrun s)
    | some (n, t) =>
      stagedArrived z (clearFailures (holdSlot n { t with spl := { t.spl with staging := t.spl.staging ++ [n] } }))

/-- SEARCH DONE with its outcome: the join, the wait for staged sector o + 1, or a failed attempt (03 R56 to R58). The wait
is for the record's own REREAD run: the other zone's run counts as no run (LOG 33). -/
def searchResolves (z : Zone) (r : SpliceRec) (q : Search) (s : State) : State :=
  match searchOutcome q (effectiveOverlap r) s with
  | none => failedAttempt z s
  | some p =>
    if continuationStaged q p s then verifiedJoin z r p q.window.length s
    else if ownsReread z s then { s with spl := { s.spl with search := some { q with found := some p } } }
    else failedAttempt z s

end Sys2Proof.Machine
end

