-- ==== Sys2Proof/Machine/Conceal.lean ====
section
/-! DEFINITION. The Concealment Engine: the arithmetic of interpolation and gain, the measure of a flagged run, the SEAM
cause, and the steps by which one pair of a frame is produced (05). -/

namespace Sys2Proof.Machine

/-! ## Arithmetic -/

/-- A quotient rounded to the nearest whole number, halves going away from zero (05 R88). -/
def roundDiv (n : Int) (d : Nat) : Int :=
  if 0 ≤ n then (2 * n + d) / (2 * d) else -((2 * (-n) + d) / (2 * d))

/-- One channel of an interpolated pair: A + (B − A) × k ÷ (L + 1), rounded (05 R88). -/
def interpolateSample (a b : Sample) (k len : Nat) : Sample :=
  BitVec.ofInt 16 (a.toInt + roundDiv ((b.toInt - a.toInt) * k) (len + 1))

def interpolatePair (a b : SamplePair) (k len : Nat) : SamplePair :=
  ⟨interpolateSample a.left b.left k len, interpolateSample a.right b.right k len⟩

/-- One channel of the output: multiplied by g, divided by 256, truncated toward zero (05 R92). -/
def gainSample (x : Sample) (g : Nat) : Sample := BitVec.ofInt 16 ((x.toInt * g).tdiv 256)

def gainPair (p : SamplePair) (g : Nat) : SamplePair := ⟨gainSample p.left g, gainSample p.right g⟩

/-- The gain step for a fade length: 256 ÷ F rounded up (05 R91). -/
def gainStep (fade : Nat) : Nat := (255 + fade) / fade

/-- The gain moves one step toward its target, stopping there (05 R91). -/
def stepGain (g target step : Nat) : Nat := if g < target then min target (g + step) else max target (g - step)

/-- Whether any mute cause is present (05 R83). -/
def Causes.any (c : Causes) : Bool := c.pause || c.stop || c.starved || c.conceal || c.seam

/-- The gain target for the causes present (05 R91). -/
def targetFor (c : Causes) : Nat := if c.any then 0 else 256

/-! ## Flagged runs -/

/-- Seams across which concealment joins no runs (05 R86). -/
def Seam.splits : Seam → Bool
  | .verified | .unverified | .gap => true
  | .none | .track => false

/-- What CNE finds by reading ahead (05 R87): the pair B after a run of `len` pairs, with its entry's slot and how many
entries on it lies; or a reason for which the run is long. -/
inductive Measured where
  | good (b : SamplePair) (slotB len entriesOn : Nat)
  | long (reason : ConcealReason)
  deriving DecidableEq, Repr

/-- CNE reads forward in lane order from a pair, counting flagged pairs (05 R87). `fuel` bounds the pairs and entries
looked at. -/
def measure (recOf : Nat → Sector) (lmax : Nat) : Nat → List Entry → Nat → Nat → Nat → Measured
  | 0, _, _, _, _ => .long .tooLong
  | _, [], _, _, _ => .long .laneEnd
  | fuel + 1, e :: rest, pos, count, on =>
    if 587 < pos then
      match rest with
      | [] => .long .laneEnd
      | f :: _ => if f.seam.splits then .long .seam else measure recOf lmax fuel rest f.offset count (on + 1)
    else if flaggedAt (recOf e.slot).flags pos then
      if lmax < count + 1 then .long .tooLong else measure recOf lmax fuel (e :: rest) (pos + 1) (count + 1) on
    else .good ((recOf e.slot).pairs.getD pos SamplePair.zero) e.slot count on

/-- The run that begins at the pair taken from the head of `entries` at `pos` (05 R87): B must lie in that entry or in
the next. -/
def measureRun (recOf : Nat → Sector) (lmax : Nat) (entries : List Entry) (pos : Nat) : Measured :=
  match measure recOf lmax (2 * lmax + 4) entries pos 0 0 with
  | .good b slotB len on => if on ≤ 1 then .good b slotB len on else .long .tooLong
  | .long r => .long r

/-- The mode after `k` of `len` pairs of an interpolated run: PASS once k reaches L (05 R88). -/
def interpMode (a b : SamplePair) (len k slotB : Nat) : Mode :=
  if len ≤ k then .pass else .interpolating a b len k slotB

/-- Step 2 for a pair, its result: the pair before gain, the mode, CONCEAL, and the reason of a CONCEALED report. -/
structure Concealed where
  pair    : SamplePair
  mode    : Mode
  conceal : Bool
  report  : Option ConcealReason
  deriving DecidableEq, Repr

/-- A flagged run begins at this pair (05 R87 to R89). -/
def beginRun (held : SamplePair) (m : Measured) : Concealed :=
  match m with
  | .good b slotB len _ => ⟨interpolatePair held b 1 len, interpMode held b len 1 slotB, false, none⟩
  | .long r => ⟨held, .holding, true, some r⟩

/-- Step 2 of 05 R85 for a lane pair: the source, whether it is flagged, whether it is the first played pair of an entry
behind a seam that splits runs, and the measure of a run that would begin here. -/
def concealLane (c : Cne) (source : SamplePair) (flagged seamStart : Bool) (m : Measured) : Concealed :=
  match c.mode with
  | .pass => if flagged then beginRun c.held m else ⟨source, .pass, c.causes.conceal, none⟩
  | .interpolating a b len k slotB =>
    ⟨interpolatePair a b (k + 1) len, interpMode a b len (k + 1) slotB, c.causes.conceal, none⟩
  | .holding =>
    if !flagged then ⟨source, .pass, false, none⟩
    else if seamStart then beginRun c.held m
    else ⟨c.held, .holding, c.causes.conceal, none⟩

/-- SEAM: the nearest later entry whose seam is GAP or UNVERIFIED begins within F pairs (05 R96); `d` is the count of
lane pairs up to the first entry of the list. -/
def seamNear (fade : Nat) : List Entry → Nat → Bool
  | [], _ => false
  | f :: fs, d =>
    if fade < d then false
    else if f.seam = .gap ∨ f.seam = .unverified then true
    else seamNear fade fs (d + (588 - f.offset))

/-! ## One pair -/

/-- The three kinds of output pair (05 R84). -/
inductive PairKind where
  | lane
  | held
  | silent
  deriving DecidableEq, Repr

/-- The kind of the next pair, by the zone's state at its start (05 R84). -/
def pairKind (z : Zone) (s : State) : PairKind :=
  let empty := (s.lane z).entries.isEmpty
  let g := (s.conc z).gain
  match (s.ctl z).state with
  | .idle | .cueing => .silent
  | .playing => if empty then .held else .lane
  | .paused => if g = 0 then .silent else if empty then .held else .lane
  | .starved => if g = 0 then .silent else .held

/-- What an AUDIO frame says of its first pair: track number, address and pair offset (06 R118). -/
structure PairLabel where
  track   : Nat
  address : Nat
  offset  : Nat
  deriving DecidableEq, Repr

/-- The label of a pair of a kind that is produced now (06 R118). -/
def labelOf (z : Zone) (k : PairKind) (s : State) : PairLabel :=
  match k, (s.lane z).entries with
  | .lane, e :: _ => ⟨e.track, e.address, (s.lane z).playPos.getD e.offset⟩
  | _, _ =>
    match position z s with
    | some p => ⟨activeTrack z s, p.1, p.2⟩
    | none => ⟨0, 0, 0⟩

/-- An output pair with its kind and label. -/
structure OutPair where
  pair  : SamplePair
  kind  : PairKind
  label : PairLabel
  deriving DecidableEq, Repr

/-- Steps 4 to 7 of 05 R85: target, gain step, output, held pair. -/
def finishPair (fade : Nat) (before : SamplePair) (c : Cne) : SamplePair × Cne :=
  let target := targetFor c.causes
  let g := stepGain c.gain target (gainStep fade)
  (gainPair before g, { c with gain := g, target := target, held := before })

/-- The stop fade is done: the lane is flushed and the zone goes to IDLE (06 R114). -/
def stopDone (z : Zone) (s : State) : State := enterIdle z .stop (flushWith z (inOrder s))

/-- After a lane pair or held pair: the stop fade is done at the pair at which g reaches 0 (05 R94). -/
def stopTest (z : Zone) (s : State) : State :=
  if (s.conc z).causes.stop = true ∧ (s.conc z).gain = 0 then stopDone z s else s

/-- A pair is taken from the lane, with what follows: the swap at the boundary entry, the end of the program, the end of
a stop fade, and RSC's recomputation (01 R6, R7, 06 R105, R107). LOG 24. -/
def drain (z : Zone) (s : State) : State :=
  let boundary := atBoundary (s.lane z)
  let t := takePair z s
  let t := if boundary then swap z t else t
  let t := if runOut z t then endProgram z (inOrder t) else t
  review (stopTest z t)

/-- A lane pair is produced (05 R85): the head entry `e`, the entries after it, and the pair index in it. -/
def produceLane (z : Zone) (e : Entry) (rest : List Entry) (s : State) : SamplePair × State :=
  let pos := (s.lane z).playPos.getD e.offset
  let sector := (s.slot e.slot).record
  let c := s.conc z
  let m := measureRun (fun n => (s.slot n).record) (rowOfAddress s e.address).lmax (e :: rest) pos
  let r := concealLane c (sector.pairs.getD pos SamplePair.zero) (flaggedAt sector.flags pos)
    (pos == e.offset && e.seam.splits) m
  let fade := (s.ctl z).setup.fade
  let seam := seamNear fade rest (588 - pos)
  let out := finishPair fade r.pair { c with mode := r.mode, causes := { c.causes with conceal := r.conceal, seam := seam } }
  let t := s.setConc z out.2
  let t := match r.report with
    | some why => post (.concealed z e.address pos why) t
    | none => t
  (out.1, drain z t)

/-- A held pair is produced: step 2 as in PASS, the mode and SEAM as they were (05 R85, R96). At the pair of a shortfall
the zone has just become STARVED, and the tests of a STARVED zone follow the pair (06 R104, R105; LOG 25), before the end of
a stop fade whose g reaches 0 at that pair (R94, R105; LOG 24). -/
def produceHeld (z : Zone) (shortfall : Bool) (s : State) : SamplePair × State :=
  let c := s.conc z
  let out := finishPair (s.ctl z).setup.fade c.held c
  let t := s.setConc z out.2
  (out.1, review (stopTest z (if shortfall then zoneTests z t else t)))

/-- The lane of a PLAYING zone has no pair to give: the zone enters STARVED at that pair (06 R104). -/
def starve (z : Zone) (s : State) : State :=
  let t := enterState z .starved .shortfall s
  review (post (.starved z (activeTrack z t) (position z t)) t)

/-- One output pair of a zone (05 R84, R85). -/
def producePair (z : Zone) (s : State) : OutPair × State :=
  let k := pairKind z s
  match k, (s.lane z).entries with
  | .lane, e :: rest =>
    let r := produceLane z e rest s
    (⟨r.1, .lane, labelOf z .lane s⟩, r.2)
  | .held, _ =>
    let shortfall := (s.ctl z).state == .playing
    let t := if shortfall then starve z s else s
    let r := produceHeld z shortfall t
    (⟨r.1, .held, labelOf z .held t⟩, r.2)
  | _, _ => (⟨SamplePair.zero, .silent, labelOf z .silent s⟩, s)

/-- The next `n` output pairs of a zone, one after the other: what one pair posts comes before what the next does (05
R85). -/
def producePairs : Nat → Zone → State → List OutPair × State
  | 0, _, s => ([], s)
  | n + 1, z, s =>
    let p := producePair z (inOrder s)
    let r := producePairs n z p.2
    (p.1 :: r.1, r.2)

end Sys2Proof.Machine
end

