-- ==== Sys2Proof/Machine/Control.lean ====
section
/-! DEFINITION. How a frame and a command reach their block: INP's part in a frame that has ended, the control queue,
CMI's own tests, and refusals (09 R149, 10 R155 to R158). -/

namespace Sys2Proof.Machine

/-! ## Intake frames -/

/-- A frame that was being assembled is over: INP hunts (09 R148). -/
def leaveAssembly (s : State) : State :=
  match s.inp with
  | .assembling _ => { s with inp := .hunting }
  | _ => s

/-- A whole frame that INP has taken: the frame is over for INP, and then has its effect (LOG 3). In WAIT-IDLE INP takes
no characters, and so no frame (09 R150). -/
def frameEvent (f : State → State) (s : State) : Host.Outcome State Fault Refusal :=
  event (fun s => if s.inp = .waitIdle then s else f (leaveAssembly s)) s

/-- FRAMING-ERROR is set; where it was clear, INP posts a LINK-ERROR report (09 R148). -/
def framingError (kind : Byte) (s : State) : State :=
  if s.dlp.framingError then s
  else post (.linkError .framingError kind) { s with dlp := { s.dlp with framingError := true } }

/-- CHECK-ERROR is set; where it was clear, INP posts a LINK-ERROR report (09 R148). -/
def checkFailed (kind : Byte) (s : State) : State :=
  if s.dlp.checkError then s
  else post (.linkError .checkError kind) { s with dlp := { s.dlp with checkError := true } }

/-- A CONTROL frame is handed on to the control queue, or discarded unread where it holds 4 (10 R155). -/
def enqueueControl (payload : List Byte) (s : State) : State :=
  if s.cmi.length < 4 then { s with cmi := s.cmi ++ [payload] }
  else { s with dlp := { s.dlp with controlOverflow := true } }

/-! ## Commands -/

/-- CMI carries out a command: the frame at the head of the queue, which then leaves it (10 R156). With an empty queue
the command stands for a frame that CMI takes at once; a command that is not the head's leaves the state. INP is neither asked
nor changed: on an empty queue the command acts in WAIT-IDLE too, where no frame can arrive (09 R150), and in ASSEMBLING,
where the frame being assembled stays. All this is the model's choice (LOG 4). -/
def cmiCarry (c : Instr) (body : State → State) (s : State) : State :=
  match s.cmi with
  | [] => body s
  | f :: rest => if decodeControl f = some c then body { s with cmi := rest } else s

/-- A command is refused: a REFUSED report, and nothing else (10 R157, R158). -/
def refuse (code : Byte) (why : Reason) (s : State) : State := post (.refused code why) s

/-- CMI's length test (10 R157). -/
def lengthTest (code : Byte) (len right : Nat) (body : State → State) (s : State) : State :=
  if len = right then body s else refuse code .badField s

/-- CMI's zone test (10 R157). -/
def zoneTest (code zone : Byte) (body : Zone → State → State) (s : State) : State :=
  match zoneOf zone with
  | some z => body z s
  | none => refuse code .badField s

/-- The command code of a control command (09 R145). -/
def codeOf : Instr → Byte
  | .tableOpen _ => 0x01#8
  | .trackEntry .. => 0x02#8
  | .tableClose .. => 0x03#8
  | .policyLoad .. => 0x04#8
  | .zoneSetup .. => 0x05#8
  | .mechanismSetup .. => 0x06#8
  | .reportSetup .. => 0x07#8
  | .statusQuery _ => 0x08#8
  | .mapQuery .. => 0x09#8
  | .softReset _ => 0x0A#8
  | .play .. => 0x10#8
  | .pause .. => 0x11#8
  | .resume .. => 0x12#8
  | .stop .. => 0x13#8
  | .next .. => 0x14#8
  | .previous .. => 0x15#8
  | .locate .. => 0x16#8
  | .programAppend .. => 0x20#8
  | .programRemove .. => 0x21#8
  | .programClear .. => 0x22#8
  | .repeatMode .. => 0x23#8
  | .unknownCommandCode _ code => code
  | .powerOn | .lineBreak | .lineIdle | .badStopBit | .headerTestFailed _ | .checkError _ | .unknownKindFrame _
  | .sector _ | .stallTimerExpiry | .searchDone | .frameDue _ | .lineFallsFree | .shock | .focusLost | .focusBack
  | .trayHold | .trayResume | .discOut | .discIn | .runRefused _ | .unknownMark _ | .holdTimerExpiry
  | .controlFrame _ | .intakeCharacter _ => 0#8

/-- A control command without a zone: the gate, the length test, then the owning block. -/
def carryOut (c : Instr) (len right : Nat) (body : State → State) (s : State) : Host.Outcome State Fault Refusal :=
  event (cmiCarry c (lengthTest (codeOf c) len right body)) s

/-- A control command with a zone: the gate, the length test, the zone test, then the zone controller. -/
def carryOutZone (c : Instr) (len right : Nat) (zone : Byte) (body : Zone → State → State) (s : State) :
    Host.Outcome State Fault Refusal :=
  event (cmiCarry c (lengthTest (codeOf c) len right (zoneTest (codeOf c) zone body))) s

end Sys2Proof.Machine
end

