-- ==== Sys2Proof/Machine/Frames.lean ====
section
/-! DEFINITION. The delivery side's commands: FRAME_DUE and LINE_FALLS_FREE (05 R84, 09 R151, R153). -/

namespace Sys2Proof.Machine

/-- The AUDIO frame DLP forms from the pairs CNE has produced: its marking (05 R84), and the first pair's label (06 R118). -/
def audioFrame (z : Zone) (pairs : List OutPair) : AudioFrame :=
  let label := match pairs with
    | p :: _ => p.label
    | [] => ⟨0, 0, 0⟩
  { zone := z, muted := pairs.all fun p => p.kind == .silent, track := label.track, address := label.address
    offset := label.offset, pairs := pairs.map (·.pair) }

/-- A FRAME DUE of a zone whose cadence timer runs: 147 pairs are produced, and their frame becomes the zone's due frame
in place of one still unsent (09 R151). -/
def frameDue (z : Zone) (s : State) : State :=
  if s.dlp.cadence.get z then
    let r := producePairs 147 z s
    { r.2 with dlp := { r.2.dlp with due := r.2.dlp.due.set z (some (audioFrame z r.1)) } }
  else s

/-- FRAME_DUE (05 R84). A disabled zone has none (LOG 28). -/
def execFrameDue (z : Zone) (s : State) : Host.Outcome State Fault Refusal := event (frameDue z) s

/-- The frame being sent ends, and the arbiter chooses the next (09 R153). -/
def lineFree (s : State) : State :=
  match s.dlp.line with
  | none => s
  | some _ => arbitrate { s with dlp := { s.dlp with line := none } }

/-- LINE_FALLS_FREE (09 R153). -/
def execLineFallsFree (s : State) : Host.Outcome State Fault Refusal := event lineFree s

end Sys2Proof.Machine
end

