-- ==== Sys2Proof/Machine/Disc.lean ====
section
/-! DEFINITION. What several events of the Mechanism Monitor share: the DISC-STATE report, the marks' effect on reading
and on splices, reading becoming allowed again, emptying the table, and teardown (08, 03 R63 to R65, 07 R128). -/

namespace Sys2Proof.Machine

/-- A DISC-STATE report (08 R141). -/
def discReport (old : DiscState) (cause : DiscCause) (s : State) : State :=
  post (.discState old s.mmn.disc s.mmn.focusHeld cause) s

def setDisc (d : DiscState) (s : State) : State := { s with mmn := { s.mmn with disc := d } }

/-- Reading has become allowed again since `before`: RSC makes a grant if it is idle (02 R38, R40). -/
def allowAgain (before : Bool) (s : State) : State :=
  if before = false ∧ readingAllowed s = true then grant (refresh s) else s

/-- A SHOCK or FOCUS-LOST aborts the attempts that are in flight as the mark arrives, those of the zones that `flying`
names (03 R63). -/
def abortAttempts (flying : PerZone Bool) (s : State) : State :=
  let t := if flying.a then abortAttempt .a s else s
  if flying.b then abortAttempt .b t else t

/-- Which zones have an attempt in flight (03 R47). -/
def inFlight (s : State) : PerZone Bool := ⟨holdsStaging .a s, holdsStaging .b s⟩

/-- A SHOCK or FOCUS-LOST reaches RSC and SPL (02 R38, 03 R44, R63): the outstanding run is abandoned, a CUE or REFILL run
onto the splice path, and attempts in flight are aborted. Where both are found, the run's rewind and capture come before
the abort (LOG 34). -/
def skipMark (cause : SpliceCause) (s : State) : State :=
  match s.rsc.run with
  | none => review (abortAttempts (inFlight s) s)
  | some r =>
    review (endRun true
      (fun t => abortAttempts (inFlight s) (if r.purpose = .reread then t else splicePath r.owner cause t)) s)

/-- A TRAY-HOLD or DISC-OUT in PRESENT reaches RSC and SPL (02 R38, 03 R65): the outstanding run is abandoned without a
READ HALT, and attempts in flight are aborted uncounted. -/
def stopReading (s : State) : State :=
  match s.rsc.run with
  | none => review (keepUncounted s)
  | some _ => review (endRun false keepUncounted s)

/-- TTB is emptied (07 R128). -/
def emptyTable (s : State) : State := { s with ttb := .emptied }

/-- Teardown's step for one zone (08 R140): the flush, the contexts, IDLE with its report, and the program list. -/
def teardownZone (z : Zone) (s : State) : State :=
  let t := inOrder (flushWith z s)
  let t :=
    if (t.ctl z).state = .idle then
      t.setCtl z { t.ctl z with active := none, next := none, readOverEnd := none }
    else enterIdle z .teardown t
  inOrder (t.setCtl z { t.ctl z with program := [] })

/-- Teardown, less the cause's report and the table (08 R140): zone A, zone B, RSC's demand, the surface map, and the
retained fingerprint. -/
def teardown (s : State) : State :=
  let t := review (teardownZone .b (teardownZone .a s))
  { t with sfm := { t.sfm with records := [], recency := [] }, mmn := { t.mmn with retained := none } }

end Sys2Proof.Machine
end

