-- ==== Sys2Proof/Machine/Marks.lean ====
section
/-! DEFINITION. The marks of the mechanism and the hold timer's expiry (08 R131 to R139). -/

namespace Sys2Proof.Machine

/-- A SHOCK mark reaches RSC and SPL (02 R38, 03 R63). -/
def takeShock (s : State) : State := skipMark .shock s

/-- SHOCK (08 R131). -/
def execShock (s : State) : Host.Outcome State Fault Refusal := frameEvent takeShock s

/-- A FOCUS-LOST mark (08 R132). -/
def takeFocusLost (s : State) : State :=
  let t := skipMark .focus { s with mmn := { s.mmn with focusHeld := false } }
  if s.mmn.focusHeld then discReport t.mmn.disc .focusLost t else t

/-- FOCUS_LOST (08 R132). -/
def execFocusLost (s : State) : Host.Outcome State Fault Refusal := frameEvent takeFocusLost s

/-- A FOCUS-BACK mark (08 R132). -/
def takeFocusBack (s : State) : State :=
  let t := { s with mmn := { s.mmn with focusHeld := true } }
  let t := if s.mmn.focusHeld then t else discReport t.mmn.disc .focusBack t
  allowAgain (readingAllowed s) (clearMechFault t)

/-- FOCUS_BACK (08 R132). -/
def execFocusBack (s : State) : Host.Outcome State Fault Refusal := frameEvent takeFocusBack s

/-- A TRAY-HOLD mark (08 R133): only in PRESENT. -/
def takeTrayHold (s : State) : State :=
  if s.mmn.disc = .present then
    discReport .present .trayHold
      (stopReading { s with mmn := { s.mmn with disc := .held, holdTimer := some s.mmn.holdLimit } })
  else s

/-- TRAY_HOLD (08 R133). -/
def execTrayHold (s : State) : Host.Outcome State Fault Refusal := frameEvent takeTrayHold s

/-- A TRAY-RESUME mark (08 R134): outside HELD it is answered with LATE-RESUME. -/
def takeTrayResume (s : State) : State :=
  if s.mmn.disc = .held then
    let t := discReport .held .trayResume { s with mmn := { s.mmn with disc := .present, holdTimer := none } }
    allowAgain (readingAllowed s) (clearMechFault t)
  else post (.lateResume s.mmn.disc) s

/-- TRAY_RESUME (08 R134). -/
def execTrayResume (s : State) : Host.Outcome State Fault Refusal := frameEvent takeTrayResume s

/-- A DISC-OUT mark, by disc state (08 R135). -/
def takeDiscOut (s : State) : State :=
  let t :=
    match s.mmn.disc with
    | .present =>
      stopReading { s with
        mmn := { s.mmn with disc := .out, retained := s.ttb.fingerprint, holdTimer := some s.mmn.holdLimit } }
    | .held => { s with mmn := { s.mmn with disc := .out, retained := s.ttb.fingerprint } }
    | .out => s
    | .reloading => setDisc .out s
    | .loading => setDisc .empty (emptyTable s)
    | .empty => emptyTable s
  discReport s.mmn.disc .discOut t

/-- DISC_OUT (08 R135). -/
def execDiscOut (s : State) : Host.Outcome State Fault Refusal := frameEvent takeDiscOut s

/-- A DISC-IN mark (08 R136). -/
def takeDiscIn (s : State) : State := discReport s.mmn.disc .discIn s

/-- DISC_IN (08 R136). -/
def execDiscIn (s : State) : Host.Outcome State Fault Refusal := frameEvent takeDiscIn s

/-- UNKNOWN_MARK (08 R131): discarded without effect; the frame that carried it has ended. -/
def execUnknownMark (_event : Byte) (s : State) : Host.Outcome State Fault Refusal := frameEvent id s

/-- The table after a hold expiry: emptied in HELD and OUT, kept OPEN in RELOADING (07 R129, 08 R139). -/
def tableAfterHold (d : DiscState) (s : State) : State :=
  if d = .reloading then s else emptyTable s

/-- The hold expires (08 R139, R140). -/
def holdExpires (s : State) : State :=
  let d := s.mmn.disc
  let t := teardown (inOrder (post (.holdExpired d) s))
  let t := tableAfterHold d t
  let t := { t with mmn := { t.mmn with disc := if d = .reloading then .loading else .empty, holdTimer := none } }
  discReport d .holdExpiry (inOrder t)

/-- HOLD_TIMER_EXPIRY (08 R139). An expiry of a timer that does not run cannot be (LOG 28). -/
def execHoldTimerExpiry (s : State) : Host.Outcome State Fault Refusal :=
  event (fun s => if s.mmn.holdTimer.isSome then holdExpires s else s) s

end Sys2Proof.Machine
end

