-- ==== Sys2Proof/Machine/Reading.lean ====
section
/-! DEFINITION. The commands that reach the outstanding run: SECTOR, STALL_TIMER_EXPIRY, RUN_REFUSED and SEARCH_DONE
(02 R24 to R36, 03 R56). -/

namespace Sys2Proof.Machine

/-! ## SECTOR -/

/-- The run's last counted sector has been taken: the run completes (02 R23, R25, R26), before any cut of it (LOG 11). A
REREAD run that completes while its record still reads or waits ends its attempt (03 R57, R64). -/
def completeRun (r : Run) (s : State) : State :=
  endRun false (if r.purpose = .reread then rereadEnded r.owner else id) s

/-- After a sector has counted: completion, or else the owner lane is held against the run (02 R26, R32). -/
def afterCounted (s : State) : State :=
  match s.rsc.run with
  | none => review s
  | some r => if r.received = r.count then completeRun r s else review (checkOwnerLane s)

/-- A sector past its settle goes to the Splice Unit (02 R25); one that shows a read address is noted in the run (R20). -/
def rereadSector (f : SectorFrame) (r : Run) (s : State) : State :=
  let q := { r with received := r.received + 1, addressRead := r.addressRead || f.readAddress.isSome }
  let t := stageSector r.owner f ((rearm (sectorEvent f s)).setRun (some q))
  match t.rsc.run with
  | none => review t
  | some q => if q.received = q.count then completeRun q t else review t

/-- An accepted sector is handed to the store for the owner lane at address E; `stored` is the run record where it is
stored (02 R26, R29). A joined lane's tail has moved too. A sector that is dropped ends the run (01 R11). The append, the
join and the arming each change what 02 R39 computes the classes from: RSC recomputes them once, after all three (LOG
37). -/
def acceptSector (f : SectorFrame) (r stored : Run) (s : State) : State :=
  let z := r.owner
  if canStore z s then
    let t := storeSector z (recordOf f) r.expected s
    let joined := (t.lane z.other).entries.length != (s.lane z.other).entries.length
    let t := settleTail z (clearFailures (t.setRun (some stored)))
    afterCounted (if joined then settleTail z.other t else t)
  else endRun true id (dropSector z s)

/-- A sector at E (02 R26). -/
def sectorAtE (f : SectorFrame) (r : Run) (s : State) : State :=
  acceptSector f r
    { r with expected := r.expected + 1, received := r.received + 1, absentStreak := 0, backStreak := 0
             addressRead := true }
    (sectorEvent f (rearm s))

/-- A sector below E: a back-slip (02 R27). It has shown a read address (R20; LOG 10). -/
def backSlip (r : Run) (s : State) : State :=
  let r := { r with absentStreak := 0, backStreak := r.backStreak + 1, addressRead := true }
  let t := (rearm s).setRun (some r)
  if r.backStreak < 76 then t
  else endRun true (splicePath r.owner .backSlip) (healthEvent (granuleOf r.expected) 8 .backSlip t)

/-- A sector above E: a forward skip (02 R28). -/
def forwardSkip (r : Run) (s : State) : State :=
  endRun true id (healthEvent (granuleOf r.expected) 8 .forwardSkip s)

/-- The address-loss chain steps the owner lane over an unreadable region at E, by at least one sector (02 R30). -/
def chainOver (r : Run) (s : State) : State :=
  settleTail r.owner (stepOver r.owner (r.expected + max 1 (rowOfAddress s r.expected).gap) s)

/-- A sector with no read address, after one has been read in this run (02 R29). -/
def absentTrusted (f : SectorFrame) (r : Run) (s : State) : State :=
  let r := { r with backStreak := 0 }
  let t := (rearm s).setRun (some r)
  if r.absentStreak < 4 then
    acceptSector f r
      { r with expected := r.expected + 1, received := r.received + 1, absentStreak := r.absentStreak + 1 } t
  else endRun true (splicePath r.owner .addressLoss) t

/-- A sector with no read address, none having been read in this run (02 R30). -/
def absentUntrusted (r : Run) (s : State) : State :=
  let r := { r with absentStreak := r.absentStreak + 1 }
  let t := (rearm s).setRun (some r)
  if r.absentStreak < 5 then t
  else endRun true (chainOver r) (healthEvent (granuleOf r.expected) 8 .forwardSkip t)

/-- A sector of a CUE or REFILL run past its settle (02 R26 to R30). -/
def addressedSector (f : SectorFrame) (r : Run) (s : State) : State :=
  match f.readAddress with
  | some a =>
    if a = r.expected then sectorAtE f r s
    else if a < r.expected then backSlip r s
    else forwardSkip r s
  | none => if r.addressRead then absentTrusted f r s else absentUntrusted r s

/-- A SECTOR frame is handed to RSC (02 R21, R25). -/
def takeSector (f : SectorFrame) (s : State) : State :=
  match s.rsc.run with
  | none => s
  | some r =>
    if f.runId.toNat ≠ r.id then s
    else if 0 < r.settleLeft then (rearm s).setRun (some { r with settleLeft := r.settleLeft - 1 })
    else if r.purpose = .reread then rereadSector f r s
    else addressedSector f r s

/-- SECTOR (02 R21, R24 to R30). -/
def execSector (f : SectorFrame) (s : State) : Host.Outcome State Fault Refusal := frameEvent (takeSector f) s

/-! ## Failures -/

/-- A run failure: counted, then what it does to a REREAD run's attempt (02 R36, 03 R64). -/
def failRun (r : Run) (kind : FailKind) (s : State) : State :=
  let t := countFailure r kind s
  if r.purpose = .reread then rereadEnded r.owner t else t

/-- STALL_TIMER_EXPIRY (02 R34). An expiry of a timer that does not run cannot be (LOG 28). -/
def execStallTimerExpiry (s : State) : Host.Outcome State Fault Refusal :=
  event (fun s =>
    match s.rsc.run, s.rsc.stall with
    | some r, some _ => endRun true (failRun r .stall) s
    | _, _ => s) s

/-- A RUN-REFUSED mark reaches RSC (02 R35). -/
def runRefused (id : Byte) (s : State) : State :=
  match s.rsc.run with
  | none => s
  | some r => if id.toNat = r.id then endRun false (failRun r .runRefused) s else s

/-- RUN_REFUSED (02 R35). -/
def execRunRefused (id : Byte) (s : State) : Host.Outcome State Fault Refusal :=
  frameEvent (runRefused id) s

/-! ## SEARCH_DONE -/

/-- The search in flight ends (03 R56). -/
def searchEnds (s : State) : State :=
  match s.spl.search with
  | none => s
  | some q =>
    match s.splice q.zone with
    | none => s
    | some r => if q.found.isNone ∧ r.state = .searching then searchResolves q.zone r q s else s

/-- SEARCH_DONE (03 R56 to R58). With no search in flight there is none (LOG 28). -/
def execSearchDone (s : State) : Host.Outcome State Fault Refusal := event searchEnds s

end Sys2Proof.Machine
end

