-- ==== Sys2Proof/Machine/Intake.lean ====
section
/-! DEFINITION. The intake link's commands: LINE_IDLE, INTAKE_CHARACTER, BAD_STOP_BIT, and the frame-level events
HEADER_TEST_FAILED, CHECK_ERROR, UNKNOWN_KIND_FRAME, CONTROL_FRAME and UNKNOWN_COMMAND_CODE (09 R147 to R149, 10 R155,
R157). -/

namespace Sys2Proof.Machine

/-! ## Header tests -/

/-- Whether a frame's length suits its kind (09 R147). -/
def lengthFits (kind : Byte) (len : Nat) : Bool :=
  match kind.toNat with
  | 0x01 => 2358 ≤ len && (len - 2358) % 4 == 0 && (len - 2358) / 4 ≤ 8
  | 0x02 => len == 2
  | 0x03 => 1 ≤ len && len ≤ 32
  | _ => len ≤ 2390

/-- Whether a SECTOR's flag count suits its length (09 R147). -/
def countFits (count : Byte) (len : Nat) : Bool :=
  if count.toNat = 255 then len == 2358 else count.toNat ≤ 8 && len == 2358 + 4 * count.toNat

/-- The kind character of the frame being assembled, or 0xFF if none has been received (09 R148). -/
def kindOfFrame (chars : List Byte) : Byte := chars.headD 0xFF#8

/-- The length that a frame's header states. -/
def frameLength (chars : List Byte) : Nat := beNat ((chars.drop 1).take 2)

/-- The header test that falls due with the last character of `chars`, if any, passes (09 R147). -/
def headerPasses (chars : List Byte) : Bool :=
  if chars.length = 3 then lengthFits (kindOfFrame chars) (frameLength chars)
  else if chars.length = 9 ∧ kindOfFrame chars = 0x01#8 then countFits (chars.getD 8 0#8) (frameLength chars)
  else true

/-- A frame is complete with its second check character. -/
def frameComplete (chars : List Byte) : Bool := 3 ≤ chars.length && chars.length == 5 + frameLength chars

/-- Whether the check computed over a complete frame equals the one received (09 R144). -/
def checkEqual (chars : List Byte) : Bool :=
  let n := 3 + frameLength chars
  checkOf (chars.take n) == word16 (chars.getD n 0#8) (chars.getD (n + 1) 0#8)

/-! ## Handing on -/

/-- A MARK frame is handed to MMN (08 R131, 09 R145); an event it does not name is discarded. -/
def takeMark (event id : Byte) (s : State) : State :=
  match event.toNat with
  | 0x01 => takeShock s
  | 0x02 => takeFocusLost s
  | 0x03 => takeFocusBack s
  | 0x04 => takeTrayHold s
  | 0x05 => takeTrayResume s
  | 0x06 => takeDiscOut s
  | 0x07 => takeDiscIn s
  | 0x08 => runRefused id s
  | _ => s

/-- A frame that has ended with an equal check is handed on by kind; one of any other kind is discarded (09 R148, R149). -/
def handOn (kind : Byte) (payload : List Byte) (s : State) : State :=
  match kind.toNat with
  | 0x01 => takeSector (readSector payload) s
  | 0x02 => takeMark (payload.getD 0 0#8) (payload.getD 1 0#8) s
  | 0x03 => enqueueControl payload s
  | _ => s

/-- A complete frame ends (09 R148): INP hunts, and the frame is handed on or discarded. -/
def frameEnds (chars : List Byte) (s : State) : State :=
  let t := { s with inp := .hunting }
  if checkEqual chars then handOn (kindOfFrame chars) ((chars.drop 3).take (frameLength chars)) t
  else checkFailed (kindOfFrame chars) t

/-! ## Characters -/

/-- A character with a good stop bit (09 R147). -/
def takeCharacter (c : Byte) (s : State) : State :=
  match s.inp with
  | .waitIdle => s
  | .hunting => if c = 0xC3#8 then { s with inp := .assembling [] } else s
  | .assembling chars =>
    let now := chars ++ [c]
    if headerPasses now = false then framingError (kindOfFrame now) { s with inp := .hunting }
    else if frameComplete now then frameEnds now s
    else { s with inp := .assembling now }

/-- INTAKE_CHARACTER (09 R147). -/
def execIntakeCharacter (c : Byte) (s : State) : Host.Outcome State Fault Refusal := event (takeCharacter c) s

/-- LINE_IDLE (09 R147): the line has been at one for one character time. -/
def execLineIdle (s : State) : Host.Outcome State Fault Refusal :=
  event (fun s => if s.inp = .waitIdle then { s with inp := .hunting } else s) s

/-- A character with a bad stop bit (09 R148); in WAIT-IDLE INP takes no characters (R150). -/
def badStop (s : State) : State :=
  match s.inp with
  | .waitIdle => s
  | .hunting => framingError 0xFF#8 s
  | .assembling chars => framingError (kindOfFrame chars) { s with inp := .hunting }

/-- BAD_STOP_BIT (09 R148). -/
def execBadStopBit (s : State) : Host.Outcome State Fault Refusal := event badStop s

/-! ## Frame-level events -/

/-- HEADER_TEST_FAILED (09 R147, R148): the frame is discarded and FRAMING-ERROR set. -/
def execHeaderTestFailed (kind : Byte) (s : State) : Host.Outcome State Fault Refusal :=
  frameEvent (framingError kind) s

/-- CHECK_ERROR (09 R148): the frame is discarded and CHECK-ERROR set. -/
def execCheckError (kind : Byte) (s : State) : Host.Outcome State Fault Refusal :=
  frameEvent (checkFailed kind) s

/-- UNKNOWN_KIND_FRAME (09 R148): the frame is discarded and no flag set. -/
def execUnknownKindFrame (_kind : Byte) (s : State) : Host.Outcome State Fault Refusal := frameEvent id s

/-- CONTROL_FRAME (09 R149, 10 R155). -/
def execControlFrame (payload : List Byte) (s : State) : Host.Outcome State Fault Refusal :=
  frameEvent (enqueueControl payload) s

/-- UNKNOWN_COMMAND_CODE (10 R157): refused at the code test with the unknown code. -/
def execUnknownCommandCode (len : Nat) (code : Byte) (s : State) : Host.Outcome State Fault Refusal :=
  event (cmiCarry (.unknownCommandCode len code) (refuse code .badField)) s

end Sys2Proof.Machine
end

