-- ==== Sys2Proof/Machine/Loads.lean ====
section
/-! DEFINITION. The table loads: TABLE_OPEN, TRACK_ENTRY and TABLE_CLOSE (07 R122 to R126, 08 R137, R138). -/

namespace Sys2Proof.Machine

/-! ## TABLE OPEN -/

/-- The disc state after a load has opened (08 R137). -/
def discAfterOpen : DiscState → DiscState
  | .empty => .loading
  | .out => .reloading
  | d => d

/-- TABLE OPEN on TTB and MMN (07 R122, 08 R137). -/
def openTable (s : State) : State :=
  if s.mmn.disc = .present ∨ s.mmn.disc = .held then refuse 0x01#8 .discPresent s
  else
    discReport s.mmn.disc .tableOpen
      (setDisc (discAfterOpen s.mmn.disc) { s with ttb := { Ttb.emptied with state := .opened } })

/-- TABLE_OPEN (07 R122). -/
def execTableOpen (len : Nat) (s : State) : Host.Outcome State Fault Refusal :=
  carryOut (.tableOpen len) len 1 openTable s

/-! ## TRACK ENTRY -/

/-- The loading checks on a track's number and start, in the order of 07 R123. -/
def entryFits (t : Ttb) (track start : Nat) : Bool :=
  1 ≤ track && track ≤ 99 && start < 360000
    && (match t.entries.getLast? with
      | some e => track == e.number + 1 && e.start < start
      | none => true)

/-- TRACK ENTRY on TTB (07 R123). -/
def addTrack (track start : Nat) (kind : Option TrackKind) (s : State) : State :=
  if s.ttb.state ≠ .opened then refuse 0x02#8 .notInState s
  else
    match kind with
    | none => refuse 0x02#8 .badField s
    | some k =>
      if entryFits s.ttb track start then
        { s with ttb := { s.ttb with entries := s.ttb.entries ++ [⟨track, start, k⟩] } }
      else refuse 0x02#8 .badEntry s

/-- TRACK_ENTRY (07 R123). -/
def execTrackEntry (len : Nat) (track : Byte) (start : BitVec 24) (kind : Byte) (s : State) :
    Host.Outcome State Fault Refusal :=
  carryOut (.trackEntry len track start kind) len 6 (addTrack track.toNat start.toNat (kindOf kind)) s

/-! ## TABLE CLOSE -/

/-- The fingerprint of a table's entries and lead-out (07 R125). -/
def fingerprintOf (entries : List Track) (leadOut : Nat) : Nat :=
  ((entries.map fun e => e.number * e.start).sum + leadOut * 100 + entries.length) % 4294967296

/-- The checks of TABLE CLOSE that give BAD-ENTRY (07 R124). -/
def closeFits (t : Ttb) (count leadOut : Nat) : Bool :=
  1 ≤ count && count == t.entries.length && leadOut ≤ 360000
    && (match t.entries.getLast? with
      | some e => e.start < leadOut
      | none => false)

/-- A different disc has come back: MMN stops the timer and tears down with cause DISC-CHANGED (08 R138, R140). -/
def discChanged (fingerprint : Nat) (s : State) : State :=
  let t := teardown (inOrder (post (.discChanged (s.mmn.retained.getD 0) fingerprint) s))
  { t with mmn := { t.mmn with disc := .present, holdTimer := none } }

/-- MMN's decision at a successful close (08 R138). -/
def closeDecision (fingerprint : Nat) (s : State) : State :=
  match s.mmn.disc with
  | .loading => setDisc .present s
  | .reloading =>
    if s.mmn.retained = some fingerprint then
      { s with mmn := { s.mmn with disc := .present, holdTimer := none, retained := none } }
    else discChanged fingerprint s
  | .empty | .present | .held | .out => s

/-- What the close sets in motion once MMN has decided (07 R126): RSC, then the zone controllers. R126 gives the two zones
no order; the model has zone A retry first (LOG 35). -/
def afterClose (allowed : Bool) (s : State) : State :=
  retryChoice .b (retryChoice .a (allowAgain allowed (clearMechFault s)))

/-- TABLE CLOSE on TTB, MMN, RSC and the zone controllers (07 R124 to R126, 08 R138). -/
def closeTable (count leadOut : Nat) (s : State) : State :=
  if s.ttb.state ≠ .opened then refuse 0x03#8 .notInState s
  else if closeFits s.ttb count leadOut then
    let fp := fingerprintOf s.ttb.entries leadOut
    let t := closeDecision fp
      { s with ttb := { s.ttb with state := .closed, leadOut := some leadOut, fingerprint := some fp } }
    afterClose (readingAllowed s) (inOrder (discReport s.mmn.disc .tableClose (inOrder t)))
  else refuse 0x03#8 .badEntry s

/-- TABLE_CLOSE (07 R124). -/
def execTableClose (len : Nat) (count : Byte) (leadOut : BitVec 24) (s : State) : Host.Outcome State Fault Refusal :=
  carryOut (.tableClose len count leadOut) len 5 (closeTable count.toNat leadOut.toNat) s

end Sys2Proof.Machine
end

