-- ==== Sys2Proof/Machine/Playback.lean ====
section
/-! DEFINITION. The playback commands: PLAY, PAUSE, RESUME, STOP, NEXT, PREVIOUS and LOCATE (06 R111 to R117). -/

namespace Sys2Proof.Machine

/-! ## The tests of R111 -/

/-- The disc state is PRESENT or HELD. -/
def discThere (s : State) : Bool := s.mmn.disc == .present || s.mmn.disc == .held

/-- The tests that every playback command makes, in order: enable, the accepted states, and the disc state for the
commands that need a disc (06 R111). -/
def playbackTests (z : Zone) (accepts : List ZoneState) (needsDisc : Bool) (s : State) : Option Reason :=
  if (s.ctl z).setup.enabled = false then some .zoneDisabled
  else if (s.ctl z).state ∉ accepts then some .notInState
  else if needsDisc = true ∧ discThere s = false then some .noDisc
  else none

/-- A playback command: its tests, then its effect (06 R111). -/
def playback (code : Byte) (z : Zone) (accepts : List ZoneState) (needsDisc : Bool) (body : State → State) (s : State) :
    State :=
  match playbackTests z accepts needsDisc s with
  | some why => refuse code why s
  | none => body s

/-- Every state. -/
def anyState : List ZoneState := [.idle, .cueing, .playing, .paused, .starved]

/-- Every state but IDLE. -/
def notIdle : List ZoneState := [.cueing, .playing, .paused, .starved]

/-! ## PLAY -/

/-- PLAY's effect on a track of the table (06 R112), with the clearing of MECH-FAULT (02 R37). R111 and R37 give the two no
order; the model cues first, so that the grant of R37 finds the zone as the cue leaves it (LOG 42). -/
def playTrack (z : Zone) (track offset : Nat) (s : State) : State :=
  let b := boundsOr track (0, 0) s
  clearMechFault (cue z track b (min (b.1 + offset) (b.2 - 1)) s)

/-- PLAY's own tests and its effect (06 R111, R112). -/
def playTests (z : Zone) (track offset : Nat) (s : State) : State :=
  match s.ttb.track track with
  | none => refuse 0x10#8 .badTrack s
  | some e => if e.kind = .data then refuse 0x10#8 .dataTrack s else playTrack z track offset s

/-- PLAY (06 R112). -/
def execPlay (len : Nat) (zone track : Byte) (offset : BitVec 24) (s : State) : Host.Outcome State Fault Refusal :=
  carryOutZone (.play len zone track offset) len 6 zone
    (fun z => playback 0x10#8 z anyState true (playTests z track.toNat offset.toNat)) s

/-! ## PAUSE, RESUME, STOP -/

/-- PAUSE's effect (06 R113). -/
def pauseZone (z : Zone) (s : State) : State := review (enterState z .paused .command s)

/-- PAUSE (06 R113). -/
def execPause (len : Nat) (zone : Byte) (s : State) : Host.Outcome State Fault Refusal :=
  carryOutZone (.pause len zone) len 2 zone (fun z => playback 0x11#8 z [.playing, .starved] false (pauseZone z)) s

/-- RESUME's effect (06 R113), with the clearing of MECH-FAULT (02 R37) after it: the grant finds the zone PLAYING, an order
that R111 and R37 leave open (LOG 42). -/
def resumeZone (z : Zone) (s : State) : State := clearMechFault (review (enterState z .playing .command s))

/-- RESUME (06 R113). -/
def execResume (len : Nat) (zone : Byte) (s : State) : Host.Outcome State Fault Refusal :=
  carryOutZone (.resume len zone) len 2 zone (fun z => playback 0x12#8 z [.paused] false (resumeZone z)) s

/-- STOP's effect (06 R114, 05 R94): the STOP cause is set, and the fade is done at once where g is 0. -/
def stopZone (z : Zone) (s : State) : State :=
  if (s.ctl z).state = .cueing then review (stopDone z s)
  else
    let c := s.conc z
    review (stopTest z (s.setConc z { c with causes := { c.causes with stop := true } }))

/-- STOP (06 R114). -/
def execStop (len : Nat) (zone : Byte) (s : State) : Host.Outcome State Fault Refusal :=
  carryOutZone (.stop len zone) len 2 zone (fun z => playback 0x13#8 z notIdle false (stopZone z)) s

/-! ## NEXT, PREVIOUS, LOCATE -/

/-- NEXT's target (06 R116): the armed NEXT, or a choice made now. -/
def nextTarget (z : Zone) (s : State) : Option NextCtx :=
  match (s.ctl z).next, (s.ctl z).active with
  | some n, _ => some n
  | none, some a => chosenNext z a.track a.stop s
  | none, none => none

/-- NEXT's effect (06 R116). -/
def nextTrack (z : Zone) (s : State) : State :=
  match nextTarget z s with
  | none => review (endProgram z s)
  | some n =>
    let b := boundsOr n.track (n.start, n.stop) s
    post (.trackChange z (activeTrack z s) n.track b.1 false) (cue z n.track b b.1 (consumeOrigin z n.origin s))

/-- NEXT (06 R116). -/
def execNext (len : Nat) (zone : Byte) (s : State) : Host.Outcome State Fault Refusal :=
  carryOutZone (.next len zone) len 2 zone (fun z => playback 0x14#8 z notIdle true (nextTrack z)) s

/-- The track PREVIOUS cues: ACTIVE's where the position lies more than 150 sectors beyond its start, or where the table
holds no AUDIO track below it (06 R117). -/
def previousTarget (a : Active) (at_ : Nat) (s : State) : Nat :=
  if a.start + 150 < at_ then a.track else (s.ttb.highestBelow a.track).getD a.track

/-- PREVIOUS's effect (06 R117): a TRACK-CHANGE report when the track changes (LOG 23). -/
def previousTrack (z : Zone) (s : State) : State :=
  match (s.ctl z).active, position z s with
  | some a, some p =>
    let n := previousTarget a p.1 s
    if n = a.track then cue z a.track (boundsOr a.track (a.start, a.stop) s) a.start s
    else
      let b := boundsOr n (a.start, a.stop) s
      post (.trackChange z a.track n b.1 false) (cue z n b b.1 s)
  | _, _ => s

/-- PREVIOUS (06 R117). -/
def execPrevious (len : Nat) (zone : Byte) (s : State) : Host.Outcome State Fault Refusal :=
  carryOutZone (.previous len zone) len 2 zone (fun z => playback 0x15#8 z notIdle true (previousTrack z)) s

/-- LOCATE's address: the position's plus the offset, clamped into ACTIVE's track (06 R115). -/
def locateAddress (a : Active) (at_ : Nat) (offset : Int) : Nat :=
  clamp a.start (a.stop - 1) ((at_ : Int) + offset).toNat

/-- LOCATE's effect (06 R115), with the clearing of MECH-FAULT (02 R37) after it: the grant finds the zone as the cue leaves
it, an order that R111 and R37 leave open (LOG 42). -/
def locate (z : Zone) (offset : Int) (s : State) : State :=
  match (s.ctl z).active, position z s with
  | some a, some p => clearMechFault (cue z a.track (boundsOr a.track (a.start, a.stop) s) (locateAddress a p.1 offset) s)
  | _, _ => s

/-- LOCATE (06 R115). -/
def execLocate (len : Nat) (zone : Byte) (offset : BitVec 24) (s : State) : Host.Outcome State Fault Refusal :=
  carryOutZone (.locate len zone offset) len 5 zone
    (fun z => playback 0x16#8 z notIdle true (locate z offset.toInt)) s

end Sys2Proof.Machine
end

