-- ==== Sys2Proof/Machine/Programs.lean ====
section
/-! DEFINITION. The program list and the repeat mode: PROGRAM_APPEND, PROGRAM_REMOVE, PROGRAM_CLEAR and REPEAT (06 R110). -/

namespace Sys2Proof.Machine

/-- A zone's program list replaced. -/
def setProgram (z : Zone) (p : List Nat) (s : State) : State := s.setCtl z { s.ctl z with program := p }

/-- PROGRAM APPEND's tests and effect (06 R110). -/
def appendTrack (z : Zone) (track : Nat) (s : State) : State :=
  match s.ttb.track track with
  | none => refuse 0x20#8 .badTrack s
  | some e =>
    if e.kind = .data then refuse 0x20#8 .dataTrack s
    else if 32 ≤ (s.ctl z).program.length then refuse 0x20#8 .listFull s
    else retryChoice z (setProgram z ((s.ctl z).program ++ [track]) s)

/-- PROGRAM_APPEND (06 R110). -/
def execProgramAppend (len : Nat) (zone track : Byte) (s : State) : Host.Outcome State Fault Refusal :=
  carryOutZone (.programAppend len zone track) len 3 zone (fun z => appendTrack z track.toNat) s

/-- PROGRAM REMOVE's test and effect; positions count from 1 (06 R110, 10 R158). -/
def removeTrack (z : Zone) (position : Nat) (s : State) : State :=
  if position = 0 ∨ (s.ctl z).program.length < position then refuse 0x21#8 .badField s
  else withdraw z (setProgram z ((s.ctl z).program.eraseIdx (position - 1)) s)

/-- PROGRAM_REMOVE (06 R110). -/
def execProgramRemove (len : Nat) (zone position : Byte) (s : State) : Host.Outcome State Fault Refusal :=
  carryOutZone (.programRemove len zone position) len 3 zone (fun z => removeTrack z position.toNat) s

/-- PROGRAM CLEAR's effect (06 R110). -/
def clearProgram (z : Zone) (s : State) : State := withdraw z (setProgram z [] s)

/-- PROGRAM_CLEAR (06 R110). -/
def execProgramClear (len : Nat) (zone : Byte) (s : State) : Host.Outcome State Fault Refusal :=
  carryOutZone (.programClear len zone) len 2 zone clearProgram s

/-- REPEAT's test and effect: a mode already in force changes nothing (06 R110). -/
def setRepeat (z : Zone) (mode : Option RepeatMode) (s : State) : State :=
  match mode with
  | none => refuse 0x23#8 .badField s
  | some m =>
    if (s.ctl z).repeatMode = m then s
    else
      let t := s.setCtl z { s.ctl z with repeatMode := m }
      if (t.ctl z).next.isSome then withdraw z t else retryChoice z t

/-- REPEAT (06 R110). -/
def execRepeatMode (len : Nat) (zone mode : Byte) (s : State) : Host.Outcome State Fault Refusal :=
  carryOutZone (.repeatMode len zone mode) len 3 zone (fun z => setRepeat z (modeOf mode)) s

end Sys2Proof.Machine
end

