-- ==== Sys2Proof/Machine/Queries.lean ====
section
/-! DEFINITION. The queries: STATUS_QUERY and MAP_QUERY (11 R164, 04 R81). -/

namespace Sys2Proof.Machine

/-- The STATUS reply as the blocks stand (11 R164). The query has left the control queue, so its length is the number of
frames behind it. -/
def statusOf (s : State) : StatusReply :=
  { stateA := (s.ctl .a).state, coverA := cover .a s, trackA := activeTrack .a s
    stateB := (s.ctl .b).state, coverB := cover .b s, trackB := activeTrack .b s
    disc := s.mmn.disc, focusHeld := s.mmn.focusHeld, mechFault := s.rsc.mechFault, queueCount := s.cmi.length
    overrun := s.dlp.overrun, controlOverflow := s.dlp.controlOverflow, reportLost := s.dlp.reportLost
    checkError := s.dlp.checkError, framingError := s.dlp.framingError
    powerOn := s.dlp.causePowerOn, linkBreak := s.dlp.causeLinkBreak, soft := s.dlp.causeSoft }

/-- STATUS QUERY: the reply goes to the report queue whatever the threshold (10 R157, 11 R164). -/
def answerStatus (s : State) : State := placeReport (.status (statusOf s)) s

/-- STATUS_QUERY (11 R164). -/
def execStatusQuery (len : Nat) (s : State) : Host.Outcome State Fault Refusal :=
  carryOut (.statusQuery len) len 1 answerStatus s

/-- MAP QUERY: the index is taken as sent (04 R81, 10 R159). -/
def answerMap (start : Nat) (s : State) : State :=
  placeReport (.map start s.sfm.records.length (mapPage s.sfm start)) s

/-- MAP_QUERY (04 R81). -/
def execMapQuery (len : Nat) (start : Byte) (s : State) : Host.Outcome State Fault Refusal :=
  carryOut (.mapQuery len start) len 2 (answerMap start.toNat) s

end Sys2Proof.Machine
end

