-- ==== Sys2Proof/Machine/Resets.lean ====
section
/-! DEFINITION. The three resets: POWER_ON, LINE_BREAK and SOFT_RESET, each block as its chapter gives (11 R166). -/

namespace Sys2Proof.Machine

/-- The store after a reset: every slot free in number order, both lanes empty (01 R19). The records stay as they were
(01 R2). -/
def Sst.cleared (s : Sst) : Sst :=
  ⟨s.slots.map fun x => { x with holders := 0 }, List.range 512, ⟨Lane.empty, Lane.empty⟩⟩

/-- POWER_ON (11 R166): every block at its power-on value; the slot records are not named by R19 and stay. The model's
own fields go on. -/
def execPowerOn (s : State) : Host.Outcome State Fault Refusal :=
  event (fun s => { State.reset with sst := s.sst.cleared, free := s.free, pending := s.pending }) s

/-- DLP at a link reset (09 R150, R154, 11 R166, 01 R12, 10 R161), before the RESET report. -/
def Dlp.linkReset (d : Dlp) : Dlp :=
  { d with
    due := ⟨none, none⟩, cadence := ⟨true, false⟩, requests := [], reports := []
    overrun := false, overrunShown := false, controlOverflow := false, reportLost := false
    checkError := false, framingError := false, causeLinkBreak := true }

/-- A link reset in every block (11 R166). -/
def linkReset (s : State) : State :=
  post (.reset .linkBreak)
    { s with
      inp := .waitIdle, sst := s.sst.cleared, rsc := .initial, spl := .initial, sfm := .initial
      cne := ⟨.silent, .silent⟩, zone := ⟨.initial .defaultA, .initial .defaultB⟩
      ttb := .emptied, mmn := .initial, cmi := [], dlp := s.dlp.linkReset, evReports := 0 }

/-- LINE_BREAK (09 R150): in WAIT-IDLE no further break is recognised (LOG 26). -/
def execLineBreak (s : State) : Host.Outcome State Fault Refusal :=
  event (fun s => if s.inp = .waitIdle then s else linkReset s) s

/-- A zone controller at a soft reset: program list, repeat mode and setup are kept (06 R120). -/
def ZoneCtl.softReset (c : ZoneCtl) : ZoneCtl :=
  { c with state := .idle, active := none, next := none, readOverEnd := none }

/-- RSC at a soft reset: the stall limits are kept (02 R43). -/
def Rsc.softReset (r : Rsc) : Rsc := { Rsc.initial with firstLimit := r.firstLimit, nextLimit := r.nextLimit }

/-- DLP at a soft reset (09 R154, 11 R166), before the RESET report. -/
def Dlp.softReset (d : Dlp) : Dlp :=
  { d with due := ⟨none, none⟩, requests := [], reports := [], causeSoft := true }

/-- A soft reset in every block (10 R160, 11 R166). -/
def softReset (s : State) : State :=
  post (.reset .soft)
    { s with
      sst := s.sst.cleared, rsc := s.rsc.softReset, spl := .initial, cne := ⟨.silent, .silent⟩
      zone := ⟨s.zone.a.softReset, s.zone.b.softReset⟩, cmi := [], dlp := s.dlp.softReset, evReports := 0 }

/-- SOFT_RESET (10 R160). -/
def execSoftReset (len : Nat) (s : State) : Host.Outcome State Fault Refusal :=
  carryOut (.softReset len) len 1 softReset s

end Sys2Proof.Machine
end

