-- ==== Sys2Proof/Machine/Settings.lean ====
section
/-! DEFINITION. The settings: POLICY_LOAD, ZONE_SETUP, MECHANISM_SETUP and REPORT_SETUP (04 R79, 06 R99, R100, 02 R34,
08 R139, 10 R159). -/

namespace Sys2Proof.Machine

/-- POLICY LOAD on SFM (04 R79). -/
def loadPolicy (state : Byte) (row : PolicyFields) (s : State) : State :=
  match surfaceOf state with
  | some st => { s with sfm := s.sfm.setRow st (policyOf row) }
  | none => refuse 0x04#8 .badField s

/-- POLICY_LOAD (04 R79). -/
def execPolicyLoad (len : Nat) (state : Byte) (row : PolicyFields) (s : State) : Host.Outcome State Fault Refusal :=
  carryOut (.policyLoad len state row) len 12 (loadPolicy state row) s

/-- A zone's cadence timer is started or stopped; where it stops, the due frame is discarded (09 R151). -/
def setCadence (z : Zone) (on : Bool) (s : State) : State :=
  { s with
    dlp := { s.dlp with
      cadence := s.dlp.cadence.set z on
      due := if on then s.dlp.due else s.dlp.due.set z none } }

/-- The enable has been turned off: a zone that is not IDLE stops at once (06 R100). -/
def disableZone (z : Zone) (s : State) : State :=
  let t := if (s.ctl z).state = .idle then s else enterIdle z .disable (flushWith z s)
  setCadence z false t

/-- What a change of enable does (06 R100, 09 R151). -/
def enableChange (z : Zone) (was now : Bool) (s : State) : State :=
  match was, now with
  | true, false => disableZone z s
  | false, true => setCadence z true s
  | _, _ => s

/-- A setup that is taken (06 R99): the change of enable first, then the zone's tests and RSC's recomputation (LOG 21). -/
def applySetup (z : Zone) (su : Setup) (s : State) : State :=
  let was := (s.ctl z).setup.enabled
  review (zoneTests z (enableChange z was su.enabled (s.setCtl z { s.ctl z with setup := su })))

/-- ZONE SETUP on a zone controller (06 R99). -/
def setupZone (z : Zone) (enable priority : Byte) (target low resume critical fade : Nat) (s : State) : State :=
  match enableOf enable, priorityOf priority with
  | some e, some p =>
    applySetup z (setupOf e p target low resume critical fade (s.ctl z.other).setup.target) s
  | _, _ => refuse 0x05#8 .badField s

/-- ZONE_SETUP (06 R99). -/
def execZoneSetup (len : Nat) (zone enable priority : Byte) (target low resume critical fade : BitVec 16) (s : State) :
    Host.Outcome State Fault Refusal :=
  carryOutZone (.zoneSetup len zone enable priority target low resume critical fade) len 14 zone
    (fun z => setupZone z enable priority target.toNat low.toNat resume.toNat critical.toNat fade.toNat) s

/-- MECHANISM SETUP on RSC and MMN: a running timer keeps its expiry (02 R34, 08 R139). -/
def setupMechanism (first next hold : Nat) (s : State) : State :=
  { s with
    rsc := { s.rsc with firstLimit := clamp 100 5000 first, nextLimit := clamp 20 1000 next }
    mmn := { s.mmn with holdLimit := clamp 1 60 hold } }

/-- MECHANISM_SETUP (02 R34, 08 R139). -/
def execMechanismSetup (len : Nat) (first next : BitVec 16) (hold : Byte) (s : State) :
    Host.Outcome State Fault Refusal :=
  carryOut (.mechanismSetup len first next hold) len 6 (setupMechanism first.toNat next.toNat hold.toNat) s

/-- REPORT SETUP on DLP: all fifteen levels and the threshold, each clamped into 0 to 7 (10 R159). -/
def setupReports (levels : List Byte) (threshold : Byte) (s : State) : State :=
  { s with
    dlp := { s.dlp with
      levels := levels.map fun l => clamp 0 7 l.toNat
      threshold := clamp 0 7 threshold.toNat } }

/-- REPORT_SETUP (10 R159). -/
def execReportSetup (len : Nat) (levels : List Byte) (threshold : Byte) (s : State) :
    Host.Outcome State Fault Refusal :=
  carryOut (.reportSetup len levels threshold) len 17 (setupReports levels threshold) s

end Sys2Proof.Machine
end

