-- ==== Sys2Proof/Machine/Dispatch.lean ====
section
/-! DEFINITION. One arm for each command: its meaning. -/

namespace Sys2Proof.Machine

/-- A command's effect on everything but the queue of waiting commands. -/
def exec (i : Instr) (s : State) : Host.Outcome State Fault Refusal :=
  match i with
  | .powerOn => Sys2Proof.Machine.execPowerOn s
  | .lineBreak => Sys2Proof.Machine.execLineBreak s
  | .lineIdle => Sys2Proof.Machine.execLineIdle s
  | .badStopBit => Sys2Proof.Machine.execBadStopBit s
  | .headerTestFailed kind => Sys2Proof.Machine.execHeaderTestFailed kind s
  | .checkError kind => Sys2Proof.Machine.execCheckError kind s
  | .unknownKindFrame kind => Sys2Proof.Machine.execUnknownKindFrame kind s
  | .sector f => Sys2Proof.Machine.execSector f s
  | .stallTimerExpiry => Sys2Proof.Machine.execStallTimerExpiry s
  | .searchDone => Sys2Proof.Machine.execSearchDone s
  | .frameDue z => Sys2Proof.Machine.execFrameDue z s
  | .lineFallsFree => Sys2Proof.Machine.execLineFallsFree s
  | .shock => Sys2Proof.Machine.execShock s
  | .focusLost => Sys2Proof.Machine.execFocusLost s
  | .focusBack => Sys2Proof.Machine.execFocusBack s
  | .trayHold => Sys2Proof.Machine.execTrayHold s
  | .trayResume => Sys2Proof.Machine.execTrayResume s
  | .discOut => Sys2Proof.Machine.execDiscOut s
  | .discIn => Sys2Proof.Machine.execDiscIn s
  | .runRefused id => Sys2Proof.Machine.execRunRefused id s
  | .unknownMark event => Sys2Proof.Machine.execUnknownMark event s
  | .holdTimerExpiry => Sys2Proof.Machine.execHoldTimerExpiry s
  | .controlFrame payload => Sys2Proof.Machine.execControlFrame payload s
  | .tableOpen len => Sys2Proof.Machine.execTableOpen len s
  | .trackEntry len track start kind => Sys2Proof.Machine.execTrackEntry len track start kind s
  | .tableClose len count leadOut => Sys2Proof.Machine.execTableClose len count leadOut s
  | .policyLoad len state row => Sys2Proof.Machine.execPolicyLoad len state row s
  | .zoneSetup len zone enable priority target lowWater resume critical fade => Sys2Proof.Machine.execZoneSetup len zone enable priority target lowWater resume critical fade s
  | .mechanismSetup len first next hold => Sys2Proof.Machine.execMechanismSetup len first next hold s
  | .reportSetup len levels threshold => Sys2Proof.Machine.execReportSetup len levels threshold s
  | .statusQuery len => Sys2Proof.Machine.execStatusQuery len s
  | .mapQuery len start => Sys2Proof.Machine.execMapQuery len start s
  | .softReset len => Sys2Proof.Machine.execSoftReset len s
  | .play len zone track offset => Sys2Proof.Machine.execPlay len zone track offset s
  | .pause len zone => Sys2Proof.Machine.execPause len zone s
  | .resume len zone => Sys2Proof.Machine.execResume len zone s
  | .stop len zone => Sys2Proof.Machine.execStop len zone s
  | .next len zone => Sys2Proof.Machine.execNext len zone s
  | .previous len zone => Sys2Proof.Machine.execPrevious len zone s
  | .locate len zone offset => Sys2Proof.Machine.execLocate len zone offset s
  | .programAppend len zone track => Sys2Proof.Machine.execProgramAppend len zone track s
  | .programRemove len zone position => Sys2Proof.Machine.execProgramRemove len zone position s
  | .programClear len zone => Sys2Proof.Machine.execProgramClear len zone s
  | .repeatMode len zone mode => Sys2Proof.Machine.execRepeatMode len zone mode s
  | .intakeCharacter c => Sys2Proof.Machine.execIntakeCharacter c s
  | .unknownCommandCode len code => Sys2Proof.Machine.execUnknownCommandCode len code s

end Sys2Proof.Machine
end

