-- ==== Sys2Proof/Safety.lean ====
section
/-! DEFINITION. The laws the manual gives the part, as properties of a state, and the terms the claims use: where a
command starts from, and what a part of the machine leaves as it was. -/

namespace Sys2Proof.Safety

open Sys2Proof.Machine

/-! ## Where a command starts from -/

/-- CMI takes the command: it stands at the head of the control queue, or the queue is empty (10 R156; LOG 4). -/
def taken (c : Instr) (s : State) : Bool :=
  match s.cmi with
  | [] => true
  | f :: _ => decide (decodeControl f = some c)

/-- The state a control command acts on: the idle line has taken up what was ready, and the command's frame has left the
control queue (10 R156; LOG 4, 5). -/
def begun (s : State) : State := { beginEvent s with cmi := s.cmi.drop 1 }

/-- The state a frame's event acts on: as `beginEvent`, with the frame over for INP (LOG 3). -/
def framed (s : State) : State := leaveAssembly (beginEvent s)

/-! ## Frames -/

/-- The store is as it was but for the current-run counts. -/
def sameStore (s t : State) : Prop :=
  t.sst.slots = s.sst.slots ∧ t.sst.free = s.sst.free
    ∧ ∀ z, (t.lane z) = { s.lane z with runCount := (t.lane z).runCount }

/-- The disc's blocks are as they were. -/
def sameDisc (s t : State) : Prop := t.ttb = s.ttb ∧ t.mmn = s.mmn

/-- The intake and command side are as they were. -/
def sameIntake (s t : State) : Prop := t.inp = s.inp ∧ t.cmi = s.cmi ∧ t.pending = s.pending

/-- The delivery side is as it was but for the request queue. -/
def sameDelivery (s t : State) : Prop := t.dlp = { s.dlp with requests := t.dlp.requests }

/-- Only the scheduler has acted: RSC's own fields, the request queue, the current-run counts, and the state and attempts
made of a splice record. -/
def onlyScheduling (s t : State) : Prop :=
  sameStore s t ∧ sameDisc s t ∧ sameIntake s t ∧ sameDelivery s t
    ∧ t.sfm = s.sfm ∧ t.cne = s.cne ∧ t.zone = s.zone ∧ t.spl.staging = s.spl.staging ∧ t.spl.search = s.spl.search
    ∧ t.free = s.free ∧ t.evReports = s.evReports

/-- Only DLP has acted: its own fields and the model's counters of free values and of reports within the command. -/
def onlyDelivery (s t : State) : Prop :=
  t = { s with dlp := t.dlp, free := t.free, evReports := t.evReports }

/-- Only reports have been posted: the report queue, REPORT-LOST and the model's counters may differ. -/
def onlyReports (s t : State) : Prop :=
  t = { s with
    dlp := { s.dlp with reports := t.dlp.reports, reportLost := t.dlp.reportLost }
    free := t.free, evReports := t.evReports }

/-! ## Reports -/

/-- The reports that DLP takes of some that blocks post one after the other: those whose level is above the threshold (11
R162). -/
def aboveThreshold (s : State) (rs : List Report) : List Report :=
  rs.filter fun r => decide (s.dlp.threshold < levelOf r s)

/-- The report queue of `t`, reached within a command from the state `b` in which it began, holds `told`; but where the line
was idle in `b` the first of them may have left for it within the command, a cut of a READ RUN placed in the same command
having given the line its frame (02 R23, 09 R153; LOG 5). -/
def queuedAs (told : List Report) (b t : State) : Prop :=
  t.dlp.reports = told
    ∨ (b.dlp.line = none ∧ ∃ r, told = r :: t.dlp.reports ∧ t.dlp.line = some (reportWire r))

/-- What a flush of the zone's lane posts (01 R17, 03 R62, R66): the SPLICE report of its splice, ABANDONED, if it has one. -/
def flushReports (z : Zone) (s : State) : List Report :=
  match s.splice z with
  | some q => [.splice ⟨z, q.cause, .abandoned, q.tail, q.cover, q.attemptsMade, none, none, none⟩]
  | none => []

/-- What the teardown of a zone posts, in order (08 R140, R141): the SPLICE report of its splice, ABANDONED, if it has one, and
a ZONE-STATE report with cause TEARDOWN if it was not IDLE. -/
def teardownReports (z : Zone) (s : State) : List Report :=
  flushReports z s ++ if (s.ctl z).state = .idle then [] else [.zoneState z (s.ctl z).state .idle 0 none .teardown]

/-- What the end of a zone's program posts, in order (06 R105, R119), the zone being in the state `old` when it ends: the SPLICE
report of its splice, ABANDONED, if it has one; END-OF-PROGRAM with the last ACTIVE track; and a ZONE-STATE report with cause
END-OF-PROGRAM. -/
def programEndReports (z : Zone) (old : ZoneState) (s : State) : List Report :=
  flushReports z s ++ [.endOfProgram z (activeTrack z s), .zoneState z old .idle 0 none .endOfProgram]

/-- What a cue of the zone at address `a` in a track posts, in order (06 R103, R119): the SPLICE report of its splice,
ABANDONED, if it has one, and a ZONE-STATE report with cause COMMAND and the new position. -/
def cueReports (z : Zone) (track a : Nat) (s : State) : List Report :=
  flushReports z s ++ [.zoneState z (s.ctl z).state .cueing track (some (a, 0)) .command]

/-! ## Zones -/

/-- The lane is as it was but for its current-run count, which a new run's issue returns to 0 (01 R4). -/
def laneKept (z : Zone) (s t : State) : Prop := t.lane z = { s.lane z with runCount := (t.lane z).runCount }

/-- A zone that a command does not name is as it was: its controller, its concealment state, and its lane. -/
def zoneKept (z : Zone) (s t : State) : Prop :=
  t.ctl z = s.ctl z ∧ t.conc z = s.conc z ∧ laneKept z s t

/-- A zone has been cued in a track with these bounds at an address, as 06 R103 gives it: its lane is empty with the tail
at the address, ACTIVE is set and NEXT absent, CNE's values are those of 05 R97, and it has no splice. Its setup,
program list and repeat mode are `c`'s; the disc's blocks and the surface map are as they were. The command that cued it has
posted the reports of a cue and no other. -/
def cuedAt (z : Zone) (c : ZoneCtl) (track start stop a : Nat) (s t : State) : Prop :=
  t.lane z = ⟨[], none, some a, .none, some track, .absent, 0⟩
    ∧ t.ctl z = { c with
        state := .cueing, active := some ⟨track, start, stop⟩, next := none, readOverEnd := none }
    ∧ t.conc z = Cne.silent ∧ t.splice z = none ∧ zoneKept z.other s t ∧ sameDisc s t ∧ t.sfm = s.sfm
    ∧ queuedAs ((beginEvent s).dlp.reports ++ aboveThreshold s (cueReports z track a s)) (beginEvent s) t

/-- A zone has gone to IDLE with its lane flushed (01 R17, 05 R97, 06 R101). -/
def idled (z : Zone) (s t : State) : Prop :=
  t.lane z = Lane.empty
    ∧ t.ctl z = { s.ctl z with state := .idle, active := none, next := none, readOverEnd := none }
    ∧ t.conc z = Cne.silent ∧ t.splice z = none ∧ zoneKept z.other s t ∧ sameDisc s t ∧ t.sfm = s.sfm

/-- Several commands, one after the other. -/
def runs : List Instr → State → Host.Outcome State Fault Refusal
  | [], s => .next s
  | c :: cs, s =>
    match exec c s with
    | .next t => runs cs t
    | .fault f => .fault f
    | .refused r => .refused r

/-! ## Runs and splices -/

/-- The READ RUN of the outstanding run, if there is one. -/
def issued (t : State) : List Request :=
  match t.rsc.run with
  | some q => [.readRun q.id q.start q.speed (q.settleLeft + q.count)]
  | none => []

/-- The run `r` of `s` is over in `t` (02 R23): its owner is noted, and a run outstanding in `t` is the next one issued. -/
def runOver (r : Run) (s t : State) : Prop :=
  t.rsc.prevOwner = some r.owner ∧ ∀ q, t.rsc.run = some q → q.id = s.rsc.nextId ∧ q.received = 0

/-- The outstanding run's READ RUN has left the request queue, or the line is busy: what holds between two commands, since
an idle line takes up what waits (09 R153). -/
def sent (s : State) : Prop :=
  ∀ r, s.rsc.run = some r → s.dlp.line.isSome = true ∨ readRunWaits r.id s = false

/-- The run `r` of `s` has ended with a READ HALT, or its waiting READ RUN has been removed; the next run's READ RUN
follows (02 R22, R23). -/
def halted (r : Run) (s t : State) : Prop :=
  t.dlp.requests =
    (if readRunWaits r.id s then s.dlp.requests.filter fun x => !isReadRun r.id x
      else s.dlp.requests ++ [.readHalt r.id]) ++ issued t

/-- The run `r` of `s` has ended without a READ HALT; a waiting READ RUN of it has been removed, and the next run's READ
RUN follows (02 R22, R23). -/
def unhalted (r : Run) (s t : State) : Prop :=
  t.dlp.requests = (s.dlp.requests.filter fun x => !isReadRun r.id x) ++ issued t

/-- The last `n` entries of a lane. -/
def lastEntries (n : Nat) (z : Zone) (s : State) : List Entry :=
  (s.lane z).entries.drop ((s.lane z).entries.length - n)

/-- The last `n` entries of a lane pass the tests of 01 R14: there are so many, none is in play, and the lane has no
boundary. -/
def rewindable (n : Nat) (z : Zone) (s : State) : Prop :=
  n ≤ (s.lane z).entries.length ∧ (s.lane z).boundary = .absent
    ∧ (n < (s.lane z).entries.length ∨ ((s.ctl z).state ≠ .playing ∧ (s.ctl z).state ≠ .paused))

/-- A rewind of lane `x` by `n` removes exactly `n` entries (01 R14, R15): the current run appended so many, they pass the
tests, and the other lane lists none of their slots, or lists them all as its own last entries, which pass the tests
too. -/
def rewindsWhole (x : Zone) (n : Nat) (s : State) : Prop :=
  n ≤ (s.lane x).runCount ∧ rewindable n x s
    ∧ ((∀ e ∈ lastEntries n x s, ∀ f ∈ (s.lane x.other).entries, f.slot ≠ e.slot)
      ∨ (rewindable n x.other s
        ∧ (lastEntries n x.other s).map (·.slot) = (lastEntries n x s).map (·.slot)))

/-- A rewind of lane `x` by `n` has removed exactly `n` entries, and the splice captured after it has the earliest one's
address as its T (01 R14, 03 R46). -/
def rewound (x : Zone) (n : Nat) (q : SpliceRec) (s t : State) : Prop :=
  (t.lane x).entries = (s.lane x).entries.take ((s.lane x).entries.length - n)
    ∧ ∀ e, (lastEntries n x s).head? = some e → q.tail = e.address

/-- A staged sector with address `a` can be moved behind `k` others: it makes no 449th entry and lies below the end of the
appending track (03 R57, R59). -/
def movable (z : Zone) (k a : Nat) (s : State) : Prop :=
  (s.lane z).entries.length + k < 448 ∧ ∃ e, appendingEnd z s = some e ∧ a < e

/-- A GAP fallback for the record `q` of zone `z` has stepped the lane's tail on by the gap advance, bounded by the end of
the appending track (03 R60), from where no arming carries it on. -/
def gapStepped (z : Zone) (q : SpliceRec) (s t : State) : Prop :=
  t.spl.staging = [] ∧ t.spl.search = none ∧ t.splice z = none
    ∧ ((s.ctl z).readOverEnd = none → ∀ e, appendingEnd z s = some e →
      let a := q.tail + (rowOfGranule t ((q.tail - 1) / 75)).gap
      (a < e → (t.lane z).tail = some a ∧ (t.lane z).pendingSeam = .gap)
        ∧ (e ≤ a → (s.ctl z).next = none → (s.ctl z).state = .playing →
          (∀ c, (s.ctl z).active = some c → chosenNext z c.track c.stop s = none) →
          (t.lane z).tail = some e ∧ (t.lane z).pendingSeam = .gap))

/-- The record `q` of a zone has been put back to wait for its next attempt with one attempt fewer and, up to 8, one sector
more of overlap (03 R58, R63); the grant that follows may have begun that attempt. -/
def retriedAs (z : Zone) (q : SpliceRec) (t : State) : Prop :=
  t.spl.staging = [] ∧ t.spl.search = none
    ∧ ∃ p, t.splice z = some p ∧ p.attemptsLeft = q.attemptsLeft - 1 ∧ p.overlap = min 8 (q.overlap + 1)
      ∧ p.tail = q.tail ∧ p.cause = q.cause ∧ p.cover = q.cover
      ∧ ((p.state = .waiting ∧ p.attemptsMade = q.attemptsMade)
        ∨ (p.state = .reading ∧ p.attemptsMade = min 65535 (q.attemptsMade + 1)))

/-- The NEXT context that a sector stored or moved at address `a` has armed, where `a` ends ACTIVE's track and none was armed
(06 R106). -/
def armedAt (z : Zone) (a : Nat) (s : State) : Option NextCtx :=
  match (s.ctl z).active with
  | some c =>
    if (s.ctl z).next = none ∧ (s.ctl z).state ≠ .idle ∧ a + 1 = c.stop then chosenNext z c.track c.stop s else none
  | none => none

/-- The lane's tail and pending seam after a sector stored or moved at address `a` (01 R8, R9, 03 R57, R59): the address
behind it and NONE, or what the arming of NEXT makes of them (06 R106). -/
def tailBehind (z : Zone) (a : Nat) (s t : State) : Prop :=
  match armedAt z a s with
  | none => (t.lane z).tail = some (a + 1) ∧ (t.lane z).pendingSeam = .none
  | some n => (t.ctl z).next = some n
      ∧ (t.lane z).tail = some (if n.contiguous then a + 1 else n.start)
      ∧ (t.lane z).pendingSeam = if n.contiguous then .none else .track

/-- The lane goes on from the address behind `a`: it is open there after any arming (02 R31, R32). -/
def goesOnBehind (z : Zone) (a : Nat) (s : State) : Prop :=
  match armedAt z a s with
  | none => ∃ e, appendingEnd z s = some e ∧ a + 1 < e
  | some n => n.contiguous = true ∧ a + 1 < n.stop

/-- The run goes on as `q`, with no request sent, the stall timer armed with `l`. -/
def runGoesOn (q : Run) (l : Option Nat) (b t : State) : Prop :=
  t.rsc.run = some q ∧ t.rsc.stall = l ∧ t.dlp.requests = b.dlp.requests

/-- The run `q` goes on as `runGoesOn` says, or, where the sector taken was the `last` it counts, is over without a READ HALT
(02 R23, R25). -/
def countsOn (q : Run) (last : Prop) (l : Option Nat) (b t : State) : Prop :=
  (¬ last → runGoesOn q l b t) ∧ (last → runOver q b t ∧ unhalted q b t)

/-- The run `r`, whose sector has been stored at E = `q`.expected − 1, goes on as `q` (02 R23, R26, R29): at its count it is
complete with no READ HALT; where the lane does not go on behind the sector it is cut (R32); and otherwise it goes on, the
stall timer armed with the next-sector limit, unless it is a REFILL run that the other zone's need preempts (R42). -/
def countedAs (r q : Run) (s t : State) : Prop :=
  let on := runGoesOn q (some s.rsc.nextLimit) (framed s) t
  (q.received = q.count → runOver r (framed s) t ∧ unhalted r (framed s) t)
    ∧ (q.received ≠ q.count → ¬ goesOnBehind r.owner r.expected s → runOver r (framed s) t ∧ halted r (framed s) t)
    ∧ (q.received ≠ q.count → goesOnBehind r.owner r.expected s →
      (on ∨ (r.purpose = .refill ∧ runOver r (framed s) t ∧ halted r (framed s) t))
        ∧ (r.purpose = .cue ∨ (s.ctl r.owner.other).state = .idle → on))

/-- A CUEING or STARVED zone whose cover reaches its resume watermark by the sector stored at address `a` is PLAYING, and one
whose cover does not, the end of its track lying ahead, stays (06 R103, R104; 05 R93, R95). -/
def testedBehind (z : Zone) (a : Nat) (s t : State) : Prop :=
  (s.ctl z).state = .cueing ∨ (s.ctl z).state = .starved →
    ((s.ctl z).setup.resume ≤ cover z s + 1 →
      (t.ctl z).state = .playing ∧ (t.conc z).causes.starved = false ∧ (t.conc z).causes.pause = false)
    ∧ (cover z s + 1 < (s.ctl z).setup.resume → (s.ctl z).next = none →
        (∀ e, appendingEnd z s = some e → a + 1 < e) → appendingEnd z s ≠ none →
        (∀ c, (s.ctl z).active = some c → a + 1 ≠ c.stop) →
        (t.ctl z).state = (s.ctl z).state)

/-- The sector `rec` has been stored at the E of the run `r` in slot `n`, the head of the free list `n :: rest`, and the run
goes on as `q` (01 R1, R2, R9, R10, R12; 02 R26, R29, R36): the owner lane gains an entry at E, and the other lane one where
the join conditions of R10 hold; each lane's tail follows its new entry, or is as the arming of NEXT leaves it (01 R8, R9; 06
R106). The other slots, the intake side and the disc's blocks are as they were. -/
def storedAtE (r q : Run) (rec : Sector) (n : Nat) (rest : List Nat) (s t : State) : Prop :=
  let z := r.owner
  let joined := joins z.other r.expected s
  t.sst.free = rest ∧ t.slot n = ⟨rec, if joined then 2 else 1⟩ ∧ (∀ m, m ≠ n → t.slot m = s.slot m)
    ∧ (t.lane z).entries = (s.lane z).entries ++
        [⟨n, r.expected, (s.lane z).appending.getD 0, 0, (s.lane z).pendingSeam⟩]
    ∧ (t.lane z.other).entries = (s.lane z.other).entries ++
        (if joined then [⟨n, r.expected, (s.lane z.other).appending.getD 0, 0, (s.lane z.other).pendingSeam⟩] else [])
    ∧ tailBehind z r.expected s t ∧ (joined = true → tailBehind z.other r.expected s t)
    ∧ countedAs r q s t ∧ testedBehind z r.expected s t
    ∧ t.rsc.failures = 0 ∧ (s.dlp.overrunShown = true → t.dlp.overrun = false)
    ∧ sameDisc s t ∧ t.cmi = s.cmi ∧ t.inp = (framed s).inp

/-- What becomes of the zone's own REREAD run `r` at a join or UNVERIFIED fallback whose last sector was moved to address `a`
(03 R61): where every staged sector was moved and the lane goes on behind `a` it is a REFILL run from there, which completes
where the sector that brought the join was its `last`, unless the other zone's need preempts it (02 R42), and otherwise it
is cut. -/
def joinedRun (z : Zone) (r : Run) (a : Nat) (whole last : Prop) (s b t : State) : Prop :=
  let converted := countsOn { r with
    purpose := .refill, expected := a + 1, settleLeft := 0, absentStreak := 0, backStreak := 0, addressRead := true }
    last b.rsc.stall b t
  let cut := runOver r b t ∧ halted r b t
  (whole ∧ goesOnBehind z a s →
      (converted ∨ cut) ∧ ((s.ctl z.other).state = .idle → converted))
    ∧ (¬ (whole ∧ goesOnBehind z a s) → cut)

/-- The UNVERIFIED fallback for the record `q` of zone `z` with the slots `slots` staged, whose read addresses are `address`
(03 R59): from index `k` on, slot `n`, they are at the lane's end at their read addresses, as many as follow on by one and
can be moved, the first behind an UNVERIFIED seam, and the splice is over. -/
def unverifiedJoined (z : Zone) (q : SpliceRec) (slots : List Nat) (address : Nat → Option Nat) (k n : Nat) (last : Prop)
    (s b t : State) : Prop :=
  ∃ m, k + 1 + m ≤ slots.length
    ∧ (∀ j, j ≤ m → address (k + j) = some (q.tail + j) ∧ movable z j (q.tail + j) s)
    ∧ (address (k + 1 + m) ≠ some (q.tail + 1 + m) ∨ ¬ movable z (1 + m) (q.tail + 1 + m) s)
    ∧ (t.lane z).entries = (s.lane z).entries ++
        (⟨n, q.tail, (s.lane z).appending.getD 0, 0, .unverified⟩ ::
          (List.range m).map fun j =>
            (⟨slots.getD (k + 1 + j) 0, q.tail + 1 + j, (s.lane z).appending.getD 0, 0, .none⟩ : Entry))
    ∧ t.splice z = none ∧ t.spl.staging = [] ∧ t.spl.search = none
    ∧ tailBehind z (q.tail + m) s t
    ∧ ∀ r, b.rsc.run = some r → r.purpose = .reread → r.owner = z →
        joinedRun z r (q.tail + m) (k + 1 + m = slots.length) last s b t

/-! ## Playing and the choice of NEXT -/

/-- The zone takes a pair from its lane where there is one: it is PLAYING, or in its pause fade (05 R84, R93). -/
def takesPairs (z : Zone) (s : State) : Prop :=
  (s.ctl z).state = .playing ∨ ((s.ctl z).state = .paused ∧ (s.conc z).gain ≠ 0)

/-- A stop fade is done at the zone's next lane pair or held pair (05 R94). -/
def stopFadeEnds (z : Zone) (s : State) : Prop :=
  (s.conc z).causes.stop = true ∧ stepGain (s.conc z).gain 0 (gainStep (s.ctl z).setup.fade) = 0

/-- The head entry is the lane's boundary entry (01 R5). -/
def atBoundaryEntry (z : Zone) (s : State) : Prop :=
  ∃ e, (s.lane z).entries.head? = some e ∧ (s.lane z).boundary = .entry e.slot

/-- The choice of NEXT from the reference track `ref` gives the AUDIO track `m` of the CLOSED table, with its origin (06
R106). -/
def choiceIs (z : Zone) (ref m : Nat) (o : Origin) (s : State) : Prop :=
  s.ttb.state = .closed ∧ s.ttb.playable m = true ∧
    match (s.ctl z).repeatMode, (s.ctl z).program with
    | .track, _ => m = ref ∧ o = .repeatTrack
    | _, x :: _ => m = x ∧ o = .program
    | .off, [] => s.ttb.lowestAbove ref = some m ∧ o = .order
    | .list, [] => (s.ttb.lowestAbove ref).orElse (fun _ => s.ttb.lowest) = some m ∧ o = .order

/-- The choice of NEXT from the reference track `ref` gives none: the table is not CLOSED, or the list is empty and no
AUDIO track follows (06 R106). -/
def noChoice (z : Zone) (ref : Nat) (s : State) : Prop :=
  s.ttb.state ≠ .closed
    ∨ ((s.ctl z).repeatMode ≠ .track ∧ (s.ctl z).program = [] ∧ s.ttb.lowestAbove ref = none
      ∧ ((s.ctl z).repeatMode = .list → s.ttb.lowest = none))

/-- The program list once a track of this origin has been used up: a head taken from it leaves, and under repeat LIST goes to
the tail (06 R107, R108, R116). -/
def programAfter (z : Zone) (o : Origin) (s : State) : List Nat :=
  match o, (s.ctl z).program with
  | .program, x :: xs => if (s.ctl z).repeatMode = .list then xs ++ [x] else xs
  | _, p => p

/-- The state of a zone whose lane holds the rest of ACTIVE's track once its tests are made: a CUEING or STARVED zone plays
(06 R103, R104). -/
def playsFrom (st : ZoneState) : ZoneState := if st = .cueing ∨ st = .starved then .playing else st

/-- The lane waits for the track `m`, chosen and armed behind `stop` with `seam` pending there (01 R8, 06 R106). -/
def armedFor (z : Zone) (m b0 b1 stop : Nat) (o : Origin) (seam : Seam) (t : State) : Prop :=
  (t.ctl z).next = some ⟨m, b0, b1, b0 == stop, o⟩ ∧ (t.lane z).tail = some b0 ∧ (t.lane z).appending = some m
    ∧ (t.lane z).boundary = .pending ∧ (t.lane z).pendingSeam = if b0 = stop then seam else .track

/-- A CUEING or STARVED zone enters PLAYING at its tests: its cover is at its resume watermark, or its lane holds the rest of
ACTIVE's track (06 R103, R104). -/
def testsPlay (z : Zone) (s : State) : Prop :=
  ((s.ctl z).state = .cueing ∨ (s.ctl z).state = .starved)
    ∧ ((s.ctl z).setup.resume ≤ cover z s ∨ holdsRest z s = true)

/-- A CUEING or STARVED zone whose lane is empty: it waits for what the lane takes next, or ends its program (06 R103, R105). -/
def waitsEmpty (z : Zone) (s : State) : Prop :=
  ((s.ctl z).state = .cueing ∨ (s.ctl z).state = .starved) ∧ (s.lane z).entries = []

/-- The armed NEXT is read over: the lane's tail stands at its end with the boundary still pending (06 R108). -/
def readOverDue (z : Zone) (n : NextCtx) (s : State) : Prop :=
  (s.ctl z).next = some n ∧ (s.lane z).boundary = .pending ∧ (s.lane z).tail = some n.stop

/-- Nothing is to be armed at a retry: a NEXT is armed and not read over, or none is, and the zone is IDLE or its lane's tail
does not stand at ACTIVE's end (06 R106). -/
def nothingToArm (z : Zone) (s : State) : Prop :=
  (∃ n, (s.ctl z).next = some n ∧ ¬ readOverDue z n s)
    ∨ ((s.ctl z).next = none
      ∧ ((s.ctl z).state = .idle ∨ ∀ a, (s.ctl z).active = some a → (s.lane z).tail ≠ some a.stop))

/-- The zone's choice of NEXT has been retried from the state `e` (06 R106, R110; 07 R126). Where the lane's tail stands at
ACTIVE's end and none is armed, a track that the choice gives is armed behind the pending seam; with none, nothing is armed,
and a CUEING or STARVED zone whose lane is empty ends its program (R105). Where nothing is to be armed, a NEXT that is armed
stays (R107), and the lane with it. A CUEING or STARVED zone makes its tests (R103, R104), and a splice goes on exactly where
its T is still the lane's tail (03 R66). -/
def choiceRetried (z : Zone) (e t : State) : Prop :=
  let c := e.ctl z
  (∀ a, c.next = none → c.active = some a → c.state ≠ .idle → (e.lane z).tail = some a.stop → 0 < c.setup.resume →
    (∀ m o b0 b1, choiceIs z a.track m o e → e.ttb.bounds m = some (b0, b1) →
      (t.lane z).entries = (e.lane z).entries ∧ armedFor z m b0 b1 a.stop o (e.lane z).pendingSeam t
        ∧ ∃ st, t.ctl z = { c with next := (t.ctl z).next, readOverEnd := none, state := st }
          ∧ (waitsEmpty z e → st = c.state) ∧ (¬ waitsEmpty z e → st = playsFrom c.state))
    ∧ (noChoice z a.track e → c.readOverEnd = none →
      (¬ waitsEmpty z e → laneKept z e t ∧ t.ctl z = { c with state := playsFrom c.state })
      ∧ (waitsEmpty z e → t.lane z = Lane.empty ∧ t.conc z = Cne.silent ∧ t.splice z = none
          ∧ t.ctl z = { c with state := .idle, active := none, next := none, readOverEnd := none })))
  ∧ (nothingToArm z e →
    (testsPlay z e → laneKept z e t ∧ t.ctl z = { c with state := .playing })
    ∧ (¬ testsPlay z e → ¬ (waitsEmpty z e ∧ runOut z e = true) →
        laneKept z e t ∧ t.ctl z = c ∧ t.conc z = e.conc z))
  ∧ ∀ q, e.splice z = some q → ((t.splice z).isSome = true ↔ (t.lane z).tail = some q.tail)

/-- A zone that posts no report when its choice is retried: it is PLAYING, PAUSED or IDLE, so that no test is made of it, and
has no splice to end. -/
def retriesSilently (z : Zone) (s : State) : Prop :=
  (s.ctl z).state ≠ .cueing ∧ (s.ctl z).state ≠ .starved ∧ s.splice z = none

/-! ## Laws of the manual -/

/-- Both zones satisfy a property. -/
def both (p : Zone → Prop) : Prop := p .a ∧ p .b

/-- The bounds of the part's lists: 448 entries in a lane (01 R4), 12 staged slots (03 R50), 32 program entries (06
R110), 4 control frames (10 R155), 16 reports (11 R163). -/
def bounded (s : State) : Prop :=
  both (fun z => (s.lane z).entries.length ≤ 448 ∧ (s.ctl z).program.length ≤ 32)
    ∧ s.spl.staging.length ≤ 12 ∧ s.cmi.length ≤ 4 ∧ s.dlp.reports.length ≤ 16

/-- The law of the gain: every zone gain lies between 0 and 256, and its target is 0 or 256 (05 R83). -/
def gainLaw (s : State) : Prop :=
  both fun z => (s.conc z).gain ≤ 256 ∧ ((s.conc z).target = 0 ∨ (s.conc z).target = 256)

/-- A surface record's own law (04 R69, R76). -/
def recordLaw (r : SurfaceRec) : Prop :=
  1 ≤ r.count ∧ r.count ≤ 255 ∧ (r.state = .clean → r.count ≤ 31) ∧ (r.state = .damaged → 96 ≤ r.count)

/-- The law of the map: at most 64 records, in ascending granule order with no two for the same granule, each with its
own law, and the recency order naming the same granules (04 R69, R76). -/
def mapLaw (m : Sfm) : Prop :=
  m.records.length ≤ 64 ∧ m.records.Pairwise (fun x y => x.granule < y.granule) ∧ (∀ r ∈ m.records, recordLaw r)
    ∧ List.Perm m.recency (m.records.map (·.granule))

/-- The slots a lane's entries refer to. -/
def laneSlots (z : Zone) (s : State) : List Nat := (s.lane z).entries.map (·.slot)

/-- The number of lane entries and staging positions that refer to a slot (01 R2). -/
def references (n : Nat) (s : State) : Nat :=
  (laneSlots .a s).count n + (laneSlots .b s).count n + s.spl.staging.count n

/-- The laws of the store for holders and of the pool (01 R2, R3): every slot's holder count is the number of references
to it; a slot is listed at most once in each lane, and a staged slot once in staging and in no lane; the free list
holds every slot whose count is 0 and no slot twice. -/
def poolLaw (s : State) : Prop :=
  s.sst.slots.length = 512 ∧ s.sst.free.Nodup
    ∧ (∀ n, n ∈ s.sst.free ↔ n < 512 ∧ references n s = 0)
    ∧ (∀ n, n < 512 → (s.slot n).holders = references n s)
    ∧ (∀ n, 512 ≤ n → references n s = 0)
    ∧ (laneSlots .a s).Nodup ∧ (laneSlots .b s).Nodup ∧ s.spl.staging.Nodup
    ∧ (∀ n ∈ s.spl.staging, n ∉ laneSlots .a s ∧ n ∉ laneSlots .b s)

/-! ## The law of lane order -/

/-- The lane's tail address follows its last entry, where it has one. -/
def tailFollows (z : Zone) (s : State) : Prop :=
  ∀ e, (s.lane z).entries.getLast? = some e → (s.lane z).tail = some (e.address + 1)

/-- The law of lane order (01 R5), with what keeps it: the address of every entry whose seam is NONE is one more than the
address of the entry before it; the pending seam is NONE, TRACK or GAP (R4), and while it is NONE and the zone has no
splice the tail address follows the last entry (R8); a CUE or REFILL run reads its owner lane at the tail address (02
R26, R32), and its owner has no splice (03 R44); while any run is outstanding a zone with a splice has appended nothing
since the run was issued (R10); and a slot that both lanes list stands behind no splice's seam in either (R10, 03
R57). -/
def laneLaw (s : State) : Prop :=
  both (fun z => (∀ i e f, (s.lane z).entries[i]? = some e → (s.lane z).entries[i + 1]? = some f → f.seam = .none →
          f.address = e.address + 1)
      ∧ (s.lane z).pendingSeam ∈ [Seam.none, .track, .gap]
      ∧ ((s.lane z).pendingSeam = .none → s.splice z = none → tailFollows z s)
      ∧ (∀ r, s.rsc.run = some r → s.splice z ≠ none → (s.lane z).runCount = 0)
      ∧ ∀ e ∈ (s.lane z).entries, e.slot ∈ laneSlots z.other s → e.seam ∈ [Seam.none, .track, .gap])
    ∧ ∀ r, s.rsc.run = some r → r.purpose ≠ .reread →
        (s.lane r.owner).tail = some r.expected ∧ s.splice r.owner = none

/-- A trim of the zone's lane leaves entries that end at ACTIVE's end (01 R16). -/
def trimFits (z : Zone) (s : State) : Prop :=
  ∀ a e, (s.ctl z).active = some a →
    ((s.lane z).entries.take ((s.lane z).entries.length - trimCount (s.lane z))).getLast? = some e →
    e.address + 1 = a.stop

/-- The two cases are away in which the manual's own steps leave a NONE pending seam behind an entry that the tail address
does not follow (LOG 36): a splice whose rewind took a shifted join's entry away (01 R14), should its own join then move
no sector (LOG 16); and, for a command that may withdraw NEXT, a lane whose tail a GAP carried to ACTIVE's end (R16). -/
def seamsTell (c : Instr) (s : State) : Prop :=
  both fun z => ((s.lane z).pendingSeam = .none → s.splice z ≠ none → tailFollows z s)
    ∧ ((∃ n zone p, c = .programRemove n zone p ∨ c = .programClear n zone ∨ c = .repeatMode n zone p) →
        (s.ctl z).next ≠ none → trimFits z s)

/-! ## Runs, contexts and setups -/

/-- A run is outstanding only while reading is allowed, and the stall timer runs exactly while a run is outstanding (02
R34, R38); the hold timer runs exactly in HELD, OUT and RELOADING (08 R139). -/
def readingLaw (s : State) : Prop :=
  (s.rsc.run.isSome = true → readingAllowed s = true) ∧ s.rsc.stall.isSome = s.rsc.run.isSome
    ∧ (s.mmn.holdTimer.isSome = true ↔ s.mmn.disc = .held ∨ s.mmn.disc = .out ∨ s.mmn.disc = .reloading)

/-- The law of contexts of one zone (06 R101), with the enable's (R100, 09 R151): an IDLE zone has neither context, any
other has ACTIVE; a disabled zone is IDLE; the cadence timer runs exactly while the zone is enabled. -/
def contextLawOf (z : Zone) (s : State) : Prop :=
  ((s.ctl z).state = .idle → (s.ctl z).active = none ∧ (s.ctl z).next = none)
    ∧ ((s.ctl z).state ≠ .idle → (s.ctl z).active.isSome = true)
    ∧ ((s.ctl z).setup.enabled = false → (s.ctl z).state = .idle)
    ∧ s.dlp.cadence.get z = (s.ctl z).setup.enabled

/-- The law of contexts for both zones. -/
def contextLaw (s : State) : Prop := both fun z => contextLawOf z s

/-- A zone's setup is in order: the ranges and critical < resume ≤ low water < target (06 R99). -/
def setupLaw (su : Setup) : Prop :=
  32 ≤ su.target ∧ su.target ≤ 448 ∧ su.lowWater < su.target ∧ 2 ≤ su.resume ∧ su.resume ≤ su.lowWater
    ∧ 1 ≤ su.critical ∧ su.critical < su.resume ∧ 1 ≤ su.fade ∧ su.fade ≤ 256

/-- Both setups are in order, and the two targets never exceed 488 together (01 R18, 06 R99). -/
def setupsLaw (s : State) : Prop :=
  both (fun z => setupLaw (s.ctl z).setup) ∧ (s.ctl .a).setup.target + (s.ctl .b).setup.target ≤ 488

end Sys2Proof.Safety
end

