-- ==== Sys2Proof/Certificates/Slice0/Obligations.lean ====
section
/-! DEFINITION. The statements about the CW2240, for the provers.

An event ends at the delivery line: of the frames it made ready at the idle line one is sent at once, and the report queue
keeps 16 (09 R153, 11 R163). `endEvent` does this, and `IdleLineStartsAWaitingFrame` and `ReportQueueKeepsOrder` say what it
does; the other statements give the state that it ends, as `.next (endEvent t)`. -/

open Sys2Proof Sys2Proof.Machine Sys2Proof.Safety

/-! ## The machine as a whole -/

/-- A step runs the command at the front of the queue on the state with the rest of the queue; on an empty queue the
block idles (LOG 2). -/
def Obligations.StepTakesFront : Prop :=
  (∀ (c : Instr) (rest : List Instr) (s : State), s.pending = c :: rest →
    step s = exec c { s with pending := rest })
  ∧ ∀ s : State, s.pending = [] → step s = .next s

/-- Every command in every state leaves a next state, one that cannot occur or is not well formed among them (LOG 28, LOG
30), and no command touches the queue of waiting commands (LOG 2). Both are the model's choice: 00 "Events" and 10 R156
take an event and a command whole, and say nothing of such commands or of such a queue. -/
def Obligations.EveryCommandLeavesANextState : Prop :=
  ∀ (c : Instr) (s : State), ∃ t, exec c s = .next t ∧ t.pending = s.pending

/-- How an event ends at the delivery line (09 R153; LOG 5): a busy line goes on with its frame, an idle line with nothing
waiting stays idle, and an idle line with something waiting has started one of the waiting frames. So an idle line has
nothing to carry after any command. Nothing outside DLP is touched, and the same holds of the moment at which an event
begins, where only right after power-on a frame can wait at the idle line (LOG 29). -/
def Obligations.IdleLineStartsAWaitingFrame : Prop :=
  (∀ s : State, onlyDelivery s (endEvent s)
    ∧ (s.dlp.line.isSome = true → s.dlp.reports.length ≤ 16 → endEvent s = s)
    ∧ (waitingClasses s = [] → endEvent s = s)
    ∧ (s.dlp.line = none → waitingClasses s ≠ [] →
        (endEvent s).dlp.line.isSome = true
          ∧ ∃ c ∈ waitingClasses s, (endEvent s).dlp = (dropLost (startFrame c s)).dlp))
  ∧ (∀ (c : Instr) (s t : State), exec c s = .next t → t.dlp.line = none → waitingClasses t = [])
  ∧ ∀ s : State, onlyDelivery s (beginEvent s)
    ∧ (s.dlp.line.isSome = true ∨ waitingClasses s = [] → beginEvent s = { s with evReports := 0 })

/-- LINE_FALLS_FREE (09 R153, 11 R165): the frame being sent ends, and the line takes zone A's AUDIO frame, then zone
B's, then the oldest request, then the oldest report; a STATUS reply clears what it shows as its transmission begins. -/
def Obligations.LineFallsFreeServesInOrder : Prop :=
  ∀ (s : State) (x : List Byte), s.dlp.line = some x →
    ∃ t, exec .lineFallsFree s = .next (endEvent t) ∧ onlyDelivery s t
      ∧ (∀ f, s.dlp.due.a = some f →
          t.dlp = { s.dlp with due := ⟨none, s.dlp.due.b⟩, line := some (audioWire f) })
      ∧ (s.dlp.due.a = none → ∀ f, s.dlp.due.b = some f →
          t.dlp = { s.dlp with due := ⟨none, none⟩, line := some (audioWire f) })
      ∧ (s.dlp.due = ⟨none, none⟩ → ∀ r rest, s.dlp.requests = r :: rest →
          t.dlp = { s.dlp with requests := rest, line := some (requestWire r) })
      ∧ (s.dlp.due = ⟨none, none⟩ → s.dlp.requests = [] → ∀ r rest, s.dlp.reports = r :: rest →
          (∀ q, r ≠ .status q) → t.dlp = { s.dlp with reports := rest, line := some (reportWire r) })
      ∧ (s.dlp.due = ⟨none, none⟩ → s.dlp.requests = [] → ∀ q rest, s.dlp.reports = .status q :: rest →
          t.dlp = { s.dlp with
            reports := rest
            line := some (reportWire (.status q))
            controlOverflow := s.dlp.controlOverflow && !q.controlOverflow
            reportLost := s.dlp.reportLost && !q.reportLost
            checkError := s.dlp.checkError && !q.checkError
            framingError := s.dlp.framingError && !q.framingError
            causePowerOn := s.dlp.causePowerOn && !q.powerOn
            causeLinkBreak := s.dlp.causeLinkBreak && !q.linkBreak
            causeSoft := s.dlp.causeSoft && !q.soft
            overrunShown := s.dlp.overrunShown || q.overrun })
      ∧ (s.dlp.due = ⟨none, none⟩ → s.dlp.requests = [] → s.dlp.reports = [] →
          t.dlp = { s.dlp with line := none })

/-- The report queue (11 R162, R163; LOG 6). A report at or below the threshold leaves no trace; one above it is placed
behind every queued entry but, at most, entries of the same event that other blocks posted and that no rule puts before
it: a MECH-FAULT, with what its failure led to; whatever a change of focus led to; a zone's reports and splice against the
other zone's; a CONCEALED, with the swap at its pair; and a SPLICE, with its zone's start by its cover. So nothing passes a
SURFACE-STATE (02 R24, R26, R30, 03 R58), and neither a zone's TRACK-CHANGE, its END-OF-PROGRAM, nor its change to IDLE or
CUEING passes a SPLICE report of the zone (06 R100, R103, R105, R114, R116). As the event ends the queue keeps 16: behind 16 queued
entries with the line busy a report is dropped, or, where it passes entries of its own event, the last of these, and
REPORT-LOST is set. Nothing else changes. -/
def Obligations.ReportQueueKeepsOrder : Prop :=
  ∀ (r : Report) (s : State), onlyReports s (post r s) ∧ onlyReports s (placeReport r s)
    ∧ (s.dlp.threshold < levelOf r s → post r s = placeReport r s)
    ∧ (levelOf r s ≤ s.dlp.threshold → post r s = s)
    ∧ (placeReport r s).dlp.reportLost = s.dlp.reportLost ∧ (placeReport r s).evReports = s.evReports + 1
    ∧ ∃ front back, s.dlp.reports = front ++ back ∧ (placeReport r s).dlp.reports = front ++ r :: back
      ∧ back.length ≤ s.evReports
      ∧ (∀ x ∈ back, reportBlock x ≠ reportBlock r
          ∧ ((∃ z k w, x = .mechFault z k w) ∨ (∃ o n f c, r = .discState o n f c)
            ∨ ((∃ z a o w, x = .concealed z a o w) ∧ ((∃ p, r = .splice p) ∨ ∃ z o n a c, r = .trackChange z o n a c))
            ∨ ((∃ p, x = .splice p) ∧ ∃ z o n k p, r = .zoneState z o n k p .cover)
            ∨ ∃ y z, reportZone r = some y ∧ reportZone x = some z ∧ y ≠ z)
          ∧ (∀ g o n k c, x = .surfaceState g o n k c → ∃ o n f c, r = .discState o n f c)
          ∧ (∀ z p, x = .splice p → p.zone = z → (∀ k, r ≠ .endOfProgram z k) ∧ (∀ o n a c, r ≠ .trackChange z o n a c)
              ∧ ∀ o n k q c, r = .zoneState z o n k q c → c = .cover))
      ∧ (s.dlp.line.isSome = true → s.dlp.reports.length < 16 → endEvent (placeReport r s) = placeReport r s)
      ∧ (s.dlp.line.isSome = true → s.dlp.reports.length = 16 →
          endEvent (placeReport r s) = { placeReport r s with
            dlp := { s.dlp with reports := (front ++ r :: back).dropLast, reportLost := true } }
          ∧ (s.evReports = 0 → (endEvent (placeReport r s)).dlp.reports = s.dlp.reports))

/-! ## Resets -/

/-- What each block holds after power-on, where the manual gives it (01 R19, 02 R43, 03 R68, 04 R82, 05 R98, 06 R120,
07 R130, 08 R142, 09 R154, 10 R161, 11 R166). -/
def Obligations.ResetValues : Prop :=
  let s := State.reset
  s.inp = .waitIdle
    ∧ s.sst.free = List.range 512 ∧ s.sst.slots.length = 512 ∧ (∀ x ∈ s.sst.slots, x.holders = 0)
    ∧ both (fun z => s.lane z = ⟨[], none, none, .none, none, .absent, 0⟩)
    ∧ s.rsc = ⟨none, 0, none, 800, 200, 0, false, ⟨none, none⟩, ⟨false, false⟩, none⟩
    ∧ s.spl = ⟨⟨none, none⟩, [], none⟩
    ∧ s.sfm = ⟨[], [], ⟨3, 1, 2, .x4, 32, 2, 0, 8, 2, 2⟩, ⟨5, 2, 3, .x2, 32, 4, 2, 16, 3, 4⟩,
        ⟨7, 3, 4, .x1, 64, 8, 8, 32, 4, 8⟩⟩
    ∧ both (fun z => s.conc z = ⟨⟨0#16, 0#16⟩, .pass, 0, 0, ⟨false, false, false, false, false⟩⟩)
    ∧ s.ctl .a = ⟨⟨true, .high, 240, 150, 75, 38, 128⟩, .idle, none, none, [], .off, none⟩
    ∧ s.ctl .b = ⟨⟨false, .low, 240, 150, 75, 38, 128⟩, .idle, none, none, [], .off, none⟩
    ∧ s.ttb = ⟨.empty, [], none, none⟩
    ∧ s.mmn = ⟨.empty, true, none, 10, none⟩
    ∧ s.cmi = [] ∧ s.pending = []
    ∧ s.dlp = ⟨⟨none, none⟩, ⟨true, false⟩, [], [.reset .powerOn], [7, 6, 6, 6, 5, 5, 4, 4, 3, 3, 3, 2, 2, 1, 1], 0,
        false, false, false, false, false, false, true, false, false, none⟩

/-- The state after power-on meets every law of the manual that a step keeps. -/
def Obligations.ResetMeetsTheLaws : Prop :=
  bounded State.reset ∧ setupsLaw State.reset ∧ gainLaw State.reset ∧ mapLaw State.reset.sfm ∧ poolLaw State.reset
    ∧ readingLaw State.reset ∧ contextLaw State.reset ∧ laneLaw State.reset

/-- POWER_ON (11 R166) gives every block its power-on value, with the RESET report being sent (09 R153); the slots are all
free in number order, their records as they were (LOG 8). A LINE_BREAK outside WAIT-IDLE (09 R150, R154, 11 R166) does the
same in every block but DLP, where the levels, the threshold, the causes recorded and a frame being sent are kept,
LINK-BREAK is added, and the RESET report is tested against the levels; in WAIT-IDLE it does nothing (LOG 26). -/
def Obligations.PowerOnAndLinkReset : Prop :=
  ∀ s : State,
    (∃ t, exec .powerOn s = .next t
      ∧ t = { State.reset with
          sst := ⟨s.sst.slots.map fun x => { x with holders := 0 }, List.range 512, State.reset.sst.lanes⟩
          dlp := { State.reset.dlp with reports := [], line := some (reportWire (.reset .powerOn)) }
          free := t.free, pending := s.pending })
    ∧ (s.inp = .waitIdle → exec .lineBreak s = .next (endEvent (beginEvent s)))
    ∧ (s.inp ≠ .waitIdle → ∃ t, exec .lineBreak s = .next (endEvent t)
      ∧ t = { State.reset with
          sst := ⟨s.sst.slots.map fun x => { x with holders := 0 }, List.range 512, State.reset.sst.lanes⟩
          dlp := { State.reset.dlp with
            reports := if s.dlp.threshold < s.dlp.levels.getD 0 0 then [.reset .linkBreak] else []
            levels := s.dlp.levels, threshold := s.dlp.threshold
            causePowerOn := (beginEvent s).dlp.causePowerOn, causeLinkBreak := true
            causeSoft := (beginEvent s).dlp.causeSoft, line := (beginEvent s).dlp.line }
          free := t.free, evReports := t.evReports, pending := s.pending })

/-- SOFT_RESET (10 R160, R161, 01 R19, 02 R43, 03 R68, 05 R98, 06 R120, 09 R154, 11 R166): the store, the run, the
splices, the concealment state, the contexts and the queues are cleared; the intake, the table, the disc state, the
surface map, the setups, program lists, repeat modes, stall limits, levels, flags and causes are kept, and SOFT is
added. -/
def Obligations.SoftResetKeepsTheSettings : Prop :=
  ∀ s : State, taken (.softReset 1) s = true →
    ∃ t, exec (.softReset 1) s = .next (endEvent t)
      ∧ t.sst = ⟨s.sst.slots.map fun x => { x with holders := 0 }, List.range 512, State.reset.sst.lanes⟩
      ∧ t.rsc = { State.reset.rsc with firstLimit := s.rsc.firstLimit, nextLimit := s.rsc.nextLimit }
      ∧ t.spl = State.reset.spl ∧ t.cne = State.reset.cne ∧ t.cmi = []
      ∧ (∀ z, t.ctl z = { s.ctl z with state := .idle, active := none, next := none, readOverEnd := none })
      ∧ t.inp = s.inp ∧ t.ttb = s.ttb ∧ t.mmn = s.mmn ∧ t.sfm = s.sfm ∧ t.pending = s.pending
      ∧ t.dlp = { (beginEvent s).dlp with
          due := ⟨none, none⟩, requests := []
          reports := if s.dlp.threshold < s.dlp.levels.getD 0 0 then [.reset .soft] else []
          causeSoft := true }

/-! ## The intake link -/

/-- LINE_IDLE and BAD_STOP_BIT (09 R147, R148), and the frames that are discarded: HEADER_TEST_FAILED sets
FRAMING-ERROR and CHECK_ERROR sets CHECK-ERROR, each with a LINK-ERROR report only where the flag was clear;
UNKNOWN_KIND_FRAME and UNKNOWN_MARK (08 R131) set none (LOG 3). In WAIT-IDLE no frame is taken (09 R150): every command
that stands for a frame leaves the state. -/
def Obligations.DiscardedFramesSetTheirFlags : Prop :=
  (∀ s : State, exec .lineIdle s =
    .next (endEvent { beginEvent s with inp := if s.inp = .waitIdle then .hunting else s.inp }))
  ∧ (∀ s : State, s.inp = .waitIdle → exec .badStopBit s = .next (endEvent (beginEvent s)))
  ∧ (∀ s : State, s.inp = .hunting → exec .badStopBit s = .next (endEvent (framingError 0xFF#8 (beginEvent s))))
  ∧ (∀ (s : State) (k : Byte) (cs : List Byte), s.inp = .assembling (k :: cs) →
      exec .badStopBit s = .next (endEvent (framingError k { beginEvent s with inp := .hunting })))
  ∧ (∀ s : State, s.inp = .assembling [] →
      exec .badStopBit s = .next (endEvent (framingError 0xFF#8 { beginEvent s with inp := .hunting })))
  ∧ (∀ (k : Byte) (f : SectorFrame) (p : List Byte) (s : State), s.inp = .waitIdle →
    ∀ c ∈ [Instr.headerTestFailed k, .checkError k, .unknownKindFrame k, .sector f, .controlFrame p, .shock, .focusLost,
        .focusBack, .trayHold, .trayResume, .discOut, .discIn, .runRefused k, .unknownMark k],
      exec c s = .next (endEvent (beginEvent s)))
  ∧ (∀ (k : Byte) (s : State), s.inp ≠ .waitIdle →
    exec (.headerTestFailed k) s = .next (endEvent (framingError k (framed s)))
      ∧ exec (.checkError k) s = .next (endEvent (checkFailed k (framed s)))
      ∧ exec (.unknownKindFrame k) s = .next (endEvent (framed s))
      ∧ exec (.unknownMark k) s = .next (endEvent (framed s)))
  ∧ (∀ (k : Byte) (s : State), s.dlp.framingError = true → framingError k s = s)
  ∧ (∀ (k : Byte) (s : State), s.dlp.framingError = false →
      framingError k s = post (.linkError .framingError k) { s with dlp := { s.dlp with framingError := true } })
  ∧ (∀ (k : Byte) (s : State), s.dlp.checkError = true → checkFailed k s = s)
  ∧ (∀ (k : Byte) (s : State), s.dlp.checkError = false →
      checkFailed k s = post (.linkError .checkError k) { s with dlp := { s.dlp with checkError := true } })

/-- INTAKE_CHARACTER (09 R147, R148, R149), in each state of INP: WAIT-IDLE takes nothing; HUNTING waits for the
delimiter; ASSEMBLING goes on with the frame, ends it at a header test that fails, hands it on when its last check
character has come and the checks are equal, and discards it with CHECK-ERROR when they differ. The header tests are the
length against the kind, at the second length character, and a SECTOR's flag count against its length, at its sixth
payload character. A SECTOR is handed to RSC, a MARK to the block of its event, a CONTROL frame to the control queue while
it holds fewer than 4 (10 R155), and a frame of any other kind, or a MARK of another event, is discarded. -/
def Obligations.IntakeCharacterAssemblesFrames : Prop :=
  (∀ (c : Byte) (s : State),
    (s.inp = .waitIdle → exec (.intakeCharacter c) s = .next (endEvent (beginEvent s)))
    ∧ (s.inp = .hunting → c = 0xC3#8 →
        exec (.intakeCharacter c) s = .next (endEvent { beginEvent s with inp := .assembling [] }))
    ∧ (s.inp = .hunting → c ≠ 0xC3#8 → exec (.intakeCharacter c) s = .next (endEvent (beginEvent s)))
    ∧ ∀ cs : List Byte, s.inp = .assembling cs →
      (headerPasses (cs ++ [c]) = false →
        exec (.intakeCharacter c) s =
          .next (endEvent (framingError ((cs ++ [c]).headD 0xFF#8) { beginEvent s with inp := .hunting })))
      ∧ (headerPasses (cs ++ [c]) = true → frameComplete (cs ++ [c]) = false →
        exec (.intakeCharacter c) s = .next (endEvent { beginEvent s with inp := .assembling (cs ++ [c]) }))
      ∧ ∀ (kind : Byte) (payload : List Byte) (x y : Byte), payload.length < 65536 →
        cs ++ [c] = kind :: (beBytes 2 payload.length ++ payload ++ [x, y]) → headerPasses (cs ++ [c]) = true →
        exec (.intakeCharacter c) s =
          .next (endEvent (if word16 x y = checkOf (kind :: (beBytes 2 payload.length ++ payload))
            then handOn kind payload { beginEvent s with inp := .hunting }
            else checkFailed kind { beginEvent s with inp := .hunting })))
  ∧ (∀ (kind l0 l1 : Byte) (rest : List Byte),
    let n := 256 * l0.toNat + l1.toNat
    let lengthOk :=
      (kind = 0x01#8 ∧ ∃ k, k ≤ 8 ∧ n = 2358 + 4 * k) ∨ (kind = 0x02#8 ∧ n = 2) ∨ (kind = 0x03#8 ∧ 1 ≤ n ∧ n ≤ 32)
        ∨ (kind ≠ 0x01#8 ∧ kind ≠ 0x02#8 ∧ kind ≠ 0x03#8 ∧ n ≤ 2390)
    (headerPasses [kind, l0, l1] = true ↔ lengthOk)
    ∧ (∀ count : Byte, rest.length = 5 →
      (headerPasses (kind :: l0 :: l1 :: (rest ++ [count])) = true ↔
        kind ≠ 0x01#8 ∨ (count = 0xFF#8 ∧ n = 2358) ∨ (count.toNat ≤ 8 ∧ n = 2358 + 4 * count.toNat)))
    ∧ (∀ chars : List Byte, chars.length ≠ 3 → chars.length ≠ 9 → headerPasses chars = true)
    ∧ (rest.length + 3 = 5 + n ↔ frameComplete (kind :: l0 :: l1 :: rest) = true))
  ∧ ∀ (payload : List Byte) (event id : Byte) (s : State),
    handOn 0x01#8 payload s = takeSector (readSector payload) s
    ∧ handOn 0x02#8 [0x01#8, id] s = takeShock s ∧ handOn 0x02#8 [0x02#8, id] s = takeFocusLost s
    ∧ handOn 0x02#8 [0x03#8, id] s = takeFocusBack s ∧ handOn 0x02#8 [0x04#8, id] s = takeTrayHold s
    ∧ handOn 0x02#8 [0x05#8, id] s = takeTrayResume s ∧ handOn 0x02#8 [0x06#8, id] s = takeDiscOut s
    ∧ handOn 0x02#8 [0x07#8, id] s = takeDiscIn s ∧ handOn 0x02#8 [0x08#8, id] s = runRefused id s
    ∧ (event = 0#8 ∨ 8 < event.toNat → handOn 0x02#8 [event, id] s = s)
    ∧ (s.cmi.length < 4 → handOn 0x03#8 payload s = { s with cmi := s.cmi ++ [payload] })
    ∧ (4 ≤ s.cmi.length →
        handOn 0x03#8 payload s = { s with dlp := { s.dlp with controlOverflow := true } })
    ∧ ∀ kind : Byte, kind = 0#8 ∨ 3 < kind.toNat → handOn kind payload s = s

/-- CONTROL_FRAME (10 R155), outside WAIT-IDLE (09 R150): appended at the tail of the control queue while it holds fewer
than 4; otherwise discarded unread, with CONTROL-OVERFLOW set and the queued frames untouched. -/
def Obligations.ControlFrameIsQueued : Prop :=
  ∀ (p : List Byte) (s : State), s.inp ≠ .waitIdle →
    (s.cmi.length < 4 → exec (.controlFrame p) s = .next (endEvent { framed s with cmi := s.cmi ++ [p] }))
    ∧ (4 ≤ s.cmi.length → exec (.controlFrame p) s =
        .next (endEvent { framed s with dlp := { (framed s).dlp with controlOverflow := true } }))
    ∧ ∀ t, exec (.controlFrame p) s = .next t → s.cmi.length ≤ 4 → t.cmi.length ≤ 4

/-- The characters of a CONTROL frame, sent to a hunting INP one INTAKE_CHARACTER at a time, put the frame's payload on
the control queue and leave INP hunting (09 R143, R144, R147, R149, 10 R155). -/
def Obligations.CharactersMakeAControlFrame : Prop :=
  ∀ (p : List Byte) (s : State), 1 ≤ p.length → p.length ≤ 32 → s.inp = .hunting → s.cmi.length < 4 →
    ∃ t, runs ((frameBytes 0x03#8 p).map Instr.intakeCharacter) s = .next t
      ∧ onlyDelivery { s with cmi := s.cmi ++ [p] } t

/-- What CMI reads from the CONTROL payload of a command is that command (09 R145), for every control command whose
payload has the length of its code. -/
def Obligations.ControlPayloadRoundTrip : Prop :=
  ∀ (c : Instr) (n : Nat) (p : List Byte), c.wf = true → c.rightLen = some (n, n) → encodeControl c = some p →
    p.length = n ∧ decodeControl p = some c

/-- What INP reads from the SECTOR payload of a well-formed frame is that frame (09 R145, R149). -/
def Obligations.SectorPayloadRoundTrip : Prop :=
  ∀ f : SectorFrame, f.wf = true → readSector (sectorPayload f) = f

/-! ## Sectors and runs -/

/-- A sector whose id is not the outstanding run's is stale and discarded (02 R21); while settle sectors remain, one of
the run's is discarded, the settle count falls by one and the stall timer is armed with the next-sector limit (02 R25,
R34). Nothing else changes. -/
def Obligations.StaleAndSettleSectorsAreDiscarded : Prop :=
  ∀ (f : SectorFrame) (s : State), s.inp ≠ .waitIdle →
    (s.rsc.run = none → exec (.sector f) s = .next (endEvent (framed s)))
    ∧ (∀ r, s.rsc.run = some r → f.runId.toNat ≠ r.id → exec (.sector f) s = .next (endEvent (framed s)))
    ∧ (∀ r, s.rsc.run = some r → f.runId.toNat = r.id → 0 < r.settleLeft →
        exec (.sector f) s = .next (endEvent { framed s with
          rsc := { s.rsc with run := some { r with settleLeft := r.settleLeft - 1 }, stall := some s.rsc.nextLimit } }))

/-- A sector of a CUE or REFILL run whose read address is E is stored (01 R1, R2, R9, R10, R12; 02 R26, R36): the slot at
the head of the free list takes its record, the owner lane gains an entry at E, and the other lane gains one where the
join conditions of R10 hold. The run's E and its sectors received rise by one, its streaks are 0, an address has been read,
and the stall timer is armed with the next-sector limit; at its count the run completes with no READ HALT (02 R23), where
the lane does not go on behind the sector it is cut (R32), and otherwise it goes on, unless it is a REFILL run that the
other zone's need preempts (R42). Each lane's tail follows its new entry, or is as the arming of NEXT leaves it (01 R8, R9;
06 R106). A CUEING or STARVED owner whose cover reaches its resume watermark by it is PLAYING (06 R103,
R104; 05 R95), and one whose cover does not, the end of its track lying ahead, stays. The other slots, the intake side and
the disc's blocks are as they were. -/
def Obligations.AcceptedSectorIsStored : Prop :=
  ∀ (f : SectorFrame) (r : Run) (n : Nat) (rest : List Nat) (s : State), s.inp ≠ .waitIdle →
    s.rsc.run = some r → f.runId.toNat = r.id → r.settleLeft = 0 → r.purpose ≠ .reread →
    f.readAddress = some r.expected → s.sst.free = n :: rest → n < s.sst.slots.length →
    (s.lane r.owner).entries.length < 448 → s.splice r.owner = none →
    ∃ t, exec (.sector f) s = .next (endEvent t)
      ∧ storedAtE r { r with
          expected := r.expected + 1, received := r.received + 1, absentStreak := 0, backStreak := 0, addressRead := true }
          ⟨f.readAddress, standardFlags f.flags, f.pairs⟩ n rest s t
      ∧ t.sfm = (sectorEvent f s).sfm

/-- An accepted sector, at E or one of the first four of a streak with no read address (02 R26, R29), that finds no free slot,
or its lane full, is dropped (01 R11, R12): the run is over, with a READ
HALT (unless its READ RUN still waited, which is then removed); OVERRUN is set with its shown mark cleared where a slot
was wanting and the lane not full, and not set where only the lane was full; where both hold R11 gives both outcomes and
the choice is free (LOG 15). Nothing is stored, the failure count stays, and the surface map hears of the sector as of a
stored one: a sector with no read address makes no event. -/
def Obligations.SectorWithNoRoomIsDropped : Prop :=
  ∀ (f : SectorFrame) (r : Run) (s : State), s.inp ≠ .waitIdle →
    s.rsc.run = some r → f.runId.toNat = r.id → r.settleLeft = 0 → r.purpose ≠ .reread →
    f.readAddress = some r.expected ∨ (f.readAddress = none ∧ r.addressRead = true ∧ r.absentStreak < 4) →
    let ended := fun (t : State) => runOver r (framed s) t ∧ halted r (framed s) t ∧ t.rsc.failures = s.rsc.failures
      ∧ (f.readAddress = none → t.sfm = s.sfm)
    (s.sst.free = [] → (s.lane r.owner).entries.length < 448 →
      ∃ t, exec (.sector f) s = .next (endEvent t) ∧ onlyScheduling (setOverrun (sectorEvent f (framed s))) t ∧ ended t)
    ∧ (s.sst.free ≠ [] → 448 ≤ (s.lane r.owner).entries.length →
      ∃ t, exec (.sector f) s = .next (endEvent t) ∧ onlyScheduling (sectorEvent f (framed s)) t ∧ ended t)
    ∧ (s.sst.free = [] → 448 ≤ (s.lane r.owner).entries.length →
      ∃ t, exec (.sector f) s = .next (endEvent t) ∧ ended t
        ∧ (let u := sectorEvent f (framed s)
          onlyScheduling { setOverrun u with free := u.free + 1 } t ∨ onlyScheduling { u with free := u.free + 1 } t))

/-- A sector with no read address in a CUE or REFILL run (02 R29, R30). Before any address has been read it is discarded,
the streak rising, and the fifth steps the owner lane over the unreadable region with a GAP pending: by the row's gap
advance and at least one sector, and no further than the end of the appending track. At ACTIVE's end NEXT is armed where the
choice gives a track (06 R106), and a NEXT read over is replaced (R108); otherwise the lane takes no more, and a CUEING or
STARVED zone whose lane is empty ends its program (R105), where one whose lane is not plays it (R103, R104); once an address
has been read, the first four of a streak are stored at E as a sector at E is (`AcceptedSectorIsStored`), but that the streak
rises and no health event is posted; one with no room is dropped (`SectorWithNoRoomIsDropped`); and the fifth ends the run
onto the splice path, with a rewind of four. Either fifth ends the run with a READ HALT (R23). Where the last four entries of the lane pass the tests of 01 R14
and R15, exactly those four leave, T being the earliest one's address. -/
def Obligations.AddressAbsentSectorsAreCounted : Prop :=
  ∀ (f : SectorFrame) (r : Run) (s : State), s.inp ≠ .waitIdle →
    s.rsc.run = some r → f.runId.toNat = r.id → r.settleLeft = 0 → r.purpose ≠ .reread → f.readAddress = none →
    (r.addressRead = false → r.absentStreak < 4 →
      exec (.sector f) s = .next (endEvent { framed s with
        rsc := { s.rsc with run := some { r with absentStreak := r.absentStreak + 1 }, stall := some s.rsc.nextLimit } }))
    ∧ (r.addressRead = false → r.absentStreak = 4 → s.splice r.owner = none → (s.ctl r.owner).readOverEnd = none →
      0 < (s.ctl r.owner).setup.resume →
      let z := r.owner
      let st := (s.ctl z).state
      let waits := (st = .cueing ∨ st = .starved) ∧ (s.lane z).entries = []
      ∃ t, exec (.sector f) s = .next (endEvent t)
        ∧ t.sfm = (healthEvent (r.expected / 75) 8 .forwardSkip s).sfm
        ∧ (∀ y, (t.lane y).entries = (s.lane y).entries) ∧ zoneKept z.other s t ∧ sameDisc s t
        ∧ runOver r (framed s) t ∧ halted r (framed s) t
        ∧ (let e := r.expected + max 1 ((t.sfm.row (t.sfm.stateAt (r.expected / 75))).gap)
          (∀ stop, appendingEnd z s = some stop → e < stop →
            (t.lane z).tail = some e ∧ (t.lane z).pendingSeam = .gap ∧ (t.lane z).boundary = (s.lane z).boundary
              ∧ (t.ctl z).next = (s.ctl z).next ∧ (t.ctl z).active = (s.ctl z).active
              ∧ (waits ∨ st = .playing ∨ st = .paused → (t.ctl z).state = st))
          ∧ (∀ a : Active, (s.ctl z).next = none → (s.ctl z).active = some a → st ≠ .idle → a.stop ≤ e →
            (∀ m o b0 b1, choiceIs z a.track m o s → s.ttb.bounds m = some (b0, b1) →
              armedFor z m b0 b1 a.stop o .gap t ∧ (t.ctl z).active = some a
                ∧ (t.ctl z).state = if waits then st else playsFrom st)
            ∧ (noChoice z a.track s →
              (¬ waits → (t.lane z).tail = some a.stop ∧ (t.lane z).pendingSeam = .gap ∧ (t.ctl z).next = none
                ∧ (t.ctl z).active = some a ∧ (t.ctl z).state = playsFrom st)
              ∧ (waits → t.lane z = Lane.empty ∧ (t.ctl z).state = .idle ∧ (t.ctl z).active = none)))
          ∧ (∀ n : NextCtx, (s.ctl z).next = some n → (s.lane z).boundary = .pending → st ≠ .idle → n.stop ≤ e → ¬ waits →
            let used := s.setCtl z { s.ctl z with program := programAfter z n.origin s }
            (t.ctl z).program = programAfter z n.origin s ∧ (t.ctl z).active = (s.ctl z).active
              ∧ (∀ m o b0 b1, choiceIs z n.track m o used → s.ttb.bounds m = some (b0, b1) →
                (t.ctl z).next = some ⟨m, b0, b1, b0 == n.stop, o⟩ ∧ (t.lane z).tail = some b0
                  ∧ (t.lane z).appending = some m ∧ (t.lane z).boundary = .pending ∧ (t.lane z).pendingSeam = .gap)
              ∧ (noChoice z n.track used →
                (t.ctl z).next = none ∧ (t.lane z).tail = some n.stop ∧ (t.lane z).boundary = .absent
                  ∧ (t.lane z).pendingSeam = .gap))))
    ∧ (r.addressRead = true → r.absentStreak < 4 → s.splice r.owner = none → ∀ n rest, s.sst.free = n :: rest →
      n < s.sst.slots.length → (s.lane r.owner).entries.length < 448 →
      ∃ t, exec (.sector f) s = .next (endEvent t)
        ∧ storedAtE r { r with
            expected := r.expected + 1, received := r.received + 1, absentStreak := r.absentStreak + 1, backStreak := 0 }
            ⟨none, standardFlags f.flags, f.pairs⟩ n rest s t
        ∧ t.sfm = s.sfm)
    ∧ (r.addressRead = true → r.absentStreak = 4 → s.splice r.owner = none →
      ∃ t q, exec (.sector f) s = .next (endEvent t) ∧ t.splice r.owner = some q
        ∧ q.cause = .addressLoss ∧ q.tail = (t.lane r.owner).tail.getD 0 ∧ q.cover = cover r.owner t
        ∧ q.attemptsLeft = (rowOfGranule s ((q.tail - 1) / 75)).retry
        ∧ q.overlap = (rowOfGranule s ((q.tail - 1) / 75)).overlap
        ∧ (∃ k, k ≤ 4 ∧ k ≤ (s.lane r.owner).runCount
            ∧ (t.lane r.owner).entries = (s.lane r.owner).entries.take ((s.lane r.owner).entries.length - k))
        ∧ (rewindsWhole r.owner 4 s → rewound r.owner 4 q s t)
        ∧ runOver r (framed s) t ∧ halted r (framed s) t
        ∧ t.sfm = s.sfm)

/-- A sector of a CUE or REFILL run whose read address is not E (02 R27, R28): below E it is discarded and the back-slip
streak rises, the 76th ending the run with a READ HALT onto the splice path after a back-slip event for granule(E); above E the run ends
with a READ HALT after a forward-skip event for granule(E). That a back-slip's sector counts as an address read is
LOG 10. -/
def Obligations.SlippedSectorsAreDiscarded : Prop :=
  ∀ (f : SectorFrame) (r : Run) (a : Nat) (s : State), s.inp ≠ .waitIdle →
    s.rsc.run = some r → f.runId.toNat = r.id → r.settleLeft = 0 → r.purpose ≠ .reread → f.readAddress = some a →
    (a < r.expected → r.backStreak < 75 →
      exec (.sector f) s = .next (endEvent { framed s with
        rsc := { s.rsc with
          run := some { r with absentStreak := 0, backStreak := r.backStreak + 1, addressRead := true }
          stall := some s.rsc.nextLimit } }))
    ∧ (a < r.expected → r.backStreak = 75 →
      ∃ t q, exec (.sector f) s = .next (endEvent t) ∧ t.splice r.owner = some q ∧ q.cause = .backSlip
        ∧ q.tail = (t.lane r.owner).tail.getD 0
        ∧ runOver r (framed s) t ∧ halted r (framed s) t
        ∧ t.sfm = (healthEvent (r.expected / 75) 8 .backSlip s).sfm)
    ∧ (r.expected < a →
      ∃ t, exec (.sector f) s = .next (endEvent t)
        ∧ onlyScheduling (healthEvent (r.expected / 75) 8 .forwardSkip (framed s)) t
        ∧ runOver r (framed s) t ∧ halted r (framed s) t)

/-- A REREAD sector past its settle (02 R20, R24, R25; 03 R50, R51, R52). It is staged in the slot at the head of the free
list, with the next staging index, notes in the run that an address has been read where it shows one, and returns the
failure count to 0; while staging is short of the search size and the run of its count, nothing else of the store, the
splice records or the zones changes. The sector that completes the search size starts the search, with the window and the
row's X and T_tol, where the lane is not empty, its pending seam is neither TRACK nor GAP, and the window has W pairs, W ÷ 2
of them usable; otherwise the fallback is taken at once, with no attempt spent and no event posted: UNVERIFIED where a
staged sector shows T and can be moved, GAP where none shows it. A sector that comes while
a search is in flight, or while a join waits for a later one, joins staging behind the stream (R50, R67). The last sector its
run counts is staged like any other, and the run then completes without a READ HALT: a search goes on, and a join that
still waits is dropped as a failed attempt (R57, 02 R25). A thirteenth sector of a search is dropped and the run
ends with a READ HALT while the search goes on. A sector that finds no free slot is dropped with OVERRUN set and the run
ends with a READ HALT: an attempt that is READING is aborted (R64), a search goes on, and a join that waits for a sector is
dropped as a failed attempt (R57). The sector's health event stands in every case. -/
def Obligations.RereadSectorIsStaged : Prop :=
  ∀ (f : SectorFrame) (r : Run) (q : SpliceRec) (s : State), s.inp ≠ .waitIdle →
    s.rsc.run = some r → f.runId.toNat = r.id → r.settleLeft = 0 → r.purpose = .reread →
    s.splice r.owner = some q →
    let z := r.owner
    let scored := sectorEvent f (framed s)
    let counted := { r with received := r.received + 1, addressRead := r.addressRead || f.readAddress.isSome }
    let ended := fun (t : State) => runOver r (framed s) t ∧ halted r (framed s) t
    let unmatched := ∀ x, s.spl.search = some x → x.found = none
    let last := r.received + 1 = r.count
    (∀ n rest, q.state = .reading → s.spl.staging.length < 12 → s.sst.free = n :: rest →
      n < s.sst.slots.length →
      let staged := s.spl.staging ++ [n]
      let filled : Slot := ⟨⟨f.readAddress, standardFlags f.flags, f.pairs⟩, 1⟩
      (s.spl.staging.length < min q.overlap q.tail → ¬ last →
        ∃ t, exec (.sector f) s = .next (endEvent t)
          ∧ t.spl.staging = staged ∧ t.spl.recs = s.spl.recs ∧ t.spl.search = s.spl.search
          ∧ t.sst.free = rest ∧ t.slot n = filled ∧ (∀ m, m ≠ n → t.slot m = s.slot m)
          ∧ t.rsc.run = some counted ∧ t.rsc.stall = some s.rsc.nextLimit ∧ t.rsc.failures = 0
          ∧ (∀ z, t.lane z = s.lane z) ∧ t.zone = s.zone ∧ t.cne = s.cne ∧ sameDisc s t
          ∧ t.sfm = (sectorEvent f s).sfm)
      ∧ (s.spl.staging.length = min q.overlap q.tail → n ∉ s.spl.staging → n ∉ laneSlots z s →
        let row := rowOfGranule scored ((q.tail - 1) / 75)
        let ref := windowOf z row.window s
        let matchable := (s.lane z).entries ≠ [] ∧ (s.lane z).pendingSeam ≠ .track ∧ (s.lane z).pendingSeam ≠ .gap
          ∧ ref.length = row.window ∧ row.window / 2 ≤ (ref.filter fun p => !p.flagged).length
        let address := fun i => if i = s.spl.staging.length then f.readAddress else
          (s.spl.staging[i]?).bind fun m => (s.slot m).record.readAddress
        (matchable → ∃ t, exec (.sector f) s = .next (endEvent t)
          ∧ t.splice z = some { q with state := .searching } ∧ t.splice z.other = s.splice z.other
          ∧ t.spl.search = some ⟨z, ref, row.mismatches, row.tolerance, none⟩ ∧ t.spl.staging = staged
          ∧ t.slot n = filled ∧ countsOn counted last (some s.rsc.nextLimit) (framed s) t
          ∧ (∀ y, laneKept y s t) ∧ (¬ last → ∀ y, t.lane y = s.lane y) ∧ t.zone = s.zone ∧ t.sfm = scored.sfm)
        ∧ (¬ matchable → ∀ k m, staged[k]? = some m → address k = some q.tail → (∀ i, i < k → address i ≠ some q.tail) →
          movable z 0 q.tail s →
          ∃ t, exec (.sector f) s = .next (endEvent t)
            ∧ unverifiedJoined z q staged address k m last s
                { framed s with rsc := { s.rsc with run := some counted, stall := some s.rsc.nextLimit } } t
            ∧ t.sfm = scored.sfm ∧ zoneKept z.other s t ∧ sameDisc s t)
        ∧ (¬ matchable → (∀ i, i < staged.length → address i ≠ some q.tail) → (s.ctl z).state = .playing →
          ∃ t, exec (.sector f) s = .next (endEvent t) ∧ gapStepped z q s t ∧ ended t
            ∧ (t.lane z).entries = (s.lane z).entries ∧ t.sfm = scored.sfm ∧ zoneKept z.other s t ∧ sameDisc s t)))
    ∧ (∀ n rest, q.state = .searching → s.spl.staging.length < 12 → s.sst.free = n :: rest → n < s.sst.slots.length →
      n ∉ s.spl.staging →
      (unmatched ∨ (¬ last ∧ ∀ x p, s.spl.search = some x → x.found = some p →
          s.spl.staging.length < (p + x.window.length) / 588) →
        ∃ t, exec (.sector f) s = .next (endEvent t)
          ∧ t.spl.staging = s.spl.staging ++ [n] ∧ t.splice z = some q ∧ t.spl.search = s.spl.search
          ∧ t.sst.free = rest ∧ t.slot n = ⟨⟨f.readAddress, standardFlags f.flags, f.pairs⟩, 1⟩
          ∧ (∀ m, m ≠ n → t.slot m = s.slot m) ∧ countsOn counted last (some s.rsc.nextLimit) (framed s) t
          ∧ t.rsc.failures = 0 ∧ (∀ y, laneKept y s t) ∧ t.zone = s.zone ∧ t.cne = s.cne ∧ sameDisc s t
          ∧ t.sfm = scored.sfm)
      ∧ (∀ x p, last → s.spl.search = some x → x.found = some p → s.spl.staging.length < (p + x.window.length) / 588 →
        ∃ t, exec (.sector f) s = .next (endEvent t) ∧ runOver r (framed s) t ∧ unhalted r (framed s) t
          ∧ t.sfm = (healthEvent ((q.tail - 1) / 75) 16 .spliceFail scored).sfm
          ∧ (2 ≤ q.attemptsLeft → retriedAs z q t) ∧ (q.attemptsLeft ≤ 1 → t.splice z = none)))
    ∧ (q.state = .searching → unmatched → s.spl.staging.length = 12 →
      ∃ t, exec (.sector f) s = .next (endEvent t) ∧ onlyScheduling scored t ∧ ended t ∧ t.splice z = some q)
    ∧ (s.spl.staging.length < 12 → s.sst.free = [] →
      (q.state = .searching → unmatched →
        ∃ t, exec (.sector f) s = .next (endEvent t) ∧ onlyScheduling (setOverrun scored) t ∧ ended t ∧ t.splice z = some q)
      ∧ (q.state = .searching → ¬ unmatched →
        ∃ t, exec (.sector f) s = .next (endEvent t) ∧ ended t ∧ t.dlp.overrun = true ∧ t.dlp.overrunShown = false
          ∧ t.sfm = (healthEvent ((q.tail - 1) / 75) 16 .spliceFail scored).sfm
          ∧ (2 ≤ q.attemptsLeft → retriedAs z q t) ∧ (q.attemptsLeft ≤ 1 → t.splice z = none))
      ∧ (q.state = .reading →
        ∃ t, exec (.sector f) s = .next (endEvent t) ∧ ended t ∧ t.dlp.overrun = true ∧ t.dlp.overrunShown = false
          ∧ t.rsc.failures = s.rsc.failures ∧ t.sfm = scored.sfm
          ∧ (2 ≤ q.attemptsLeft → retriedAs z q t ∧ ∀ y, laneKept y s t)
          ∧ (q.attemptsLeft ≤ 1 → gapStepped z q s t)))

/-- STALL_TIMER_EXPIRY and RUN_REFUSED (02 R23, R34, R35, R36): the run is over, with a READ HALT at a stall (unless its
READ RUN still waited, which is then removed) and none at a refusal; the failure is counted, and the third sets
MECH-FAULT, with its report, so that no run follows. Of a REREAD run whose record is READING the attempt is aborted with
its staging flushed (03 R64): attempts remaining and overlap follow R63 where attempts remain, and otherwise the splice
ends by the GAP fallback; while the record is SEARCHING the search goes on, but a join that waits for a sector is dropped
as a failed attempt (R57). A RUN_REFUSED that names no outstanding run, and an expiry with no run outstanding (LOG 28), do
nothing. -/
def Obligations.RunFailuresAreCounted : Prop :=
  let counted := fun (s t : State) => t.rsc.failures = s.rsc.failures + 1 ∧ t.rsc.mechFault = s.rsc.mechFault
  let faulted := fun (t : State) => t.rsc.failures = 3 ∧ t.rsc.mechFault = true ∧ t.rsc.run = none ∧ t.rsc.stall = none
  (∀ (r : Run) (l : Nat) (s : State), s.rsc.run = some r → s.rsc.stall = some l → r.purpose ≠ .reread →
    (s.rsc.failures < 2 →
      ∃ t, exec .stallTimerExpiry s = .next (endEvent t) ∧ onlyScheduling (beginEvent s) t ∧ counted s t
        ∧ runOver r (beginEvent s) t ∧ halted r (beginEvent s) t)
    ∧ (2 ≤ s.rsc.failures →
      ∃ t, exec .stallTimerExpiry s = .next (endEvent t)
        ∧ onlyScheduling (post (.mechFault r.owner .stall r.wanted) (beginEvent s)) t ∧ faulted t
        ∧ runOver r (beginEvent s) t ∧ halted r (beginEvent s) t))
  ∧ (∀ (id : Byte) (r : Run) (s : State), s.inp ≠ .waitIdle → s.rsc.run = some r → id.toNat = r.id →
    r.purpose ≠ .reread →
    (s.rsc.failures < 2 →
      ∃ t, exec (.runRefused id) s = .next (endEvent t) ∧ onlyScheduling (framed s) t ∧ counted s t
        ∧ runOver r (framed s) t ∧ unhalted r (framed s) t)
    ∧ (2 ≤ s.rsc.failures →
      ∃ t, exec (.runRefused id) s = .next (endEvent t)
        ∧ onlyScheduling (post (.mechFault r.owner .runRefused r.wanted) (framed s)) t ∧ faulted t
        ∧ runOver r (framed s) t ∧ unhalted r (framed s) t))
  ∧ (∀ (r : Run) (q : SpliceRec) (s : State), s.inp ≠ .waitIdle → s.rsc.run = some r → s.rsc.stall.isSome = true →
    r.purpose = .reread → r.id < 256 → s.splice r.owner = some q →
    let z := r.owner
    let failed := fun (before t : State) =>
      runOver r before t ∧ (s.rsc.failures < 2 → counted s t) ∧ (2 ≤ s.rsc.failures → faulted t)
        ∧ (q.state = .reading → 2 ≤ q.attemptsLeft → retriedAs z q t ∧ ∀ y, laneKept y s t)
        ∧ (q.state = .reading → q.attemptsLeft ≤ 1 → gapStepped z q s t)
        ∧ (q.state = .searching → (∀ x, s.spl.search = some x → x.found = none) →
            t.splice z = some q ∧ t.spl.staging = s.spl.staging ∧ t.spl.search = s.spl.search ∧ ∀ y, laneKept y s t)
        ∧ (q.state = .searching → ∀ x, s.spl.search = some x → x.found ≠ none →
            t.sfm = (healthEvent ((q.tail - 1) / 75) 16 .spliceFail s).sfm
              ∧ (2 ≤ q.attemptsLeft → retriedAs z q t ∧ ∀ y, laneKept y s t)
              ∧ (q.attemptsLeft ≤ 1 → t.splice z = none))
        ∧ (q.state ≠ .searching ∨ (∀ x, s.spl.search = some x → x.found = none) → t.sfm = s.sfm)
        ∧ zoneKept z.other s t ∧ sameDisc s t ∧ sameIntake before t
    (∃ t, exec .stallTimerExpiry s = .next (endEvent t) ∧ failed (beginEvent s) t ∧ halted r (beginEvent s) t)
      ∧ ∃ t, exec (.runRefused (BitVec.ofNat 8 r.id)) s = .next (endEvent t) ∧ failed (framed s) t
        ∧ unhalted r (framed s) t)
  ∧ (∀ (id : Byte) (s : State), s.inp ≠ .waitIdle → (∀ r, s.rsc.run = some r → id.toNat ≠ r.id) →
    exec (.runRefused id) s = .next (endEvent (framed s)))
  ∧ (∀ s : State, s.rsc.run = none → exec .stallTimerExpiry s = .next (endEvent (beginEvent s)))

/-! ## The splice -/

/-- SEARCH_DONE on a search that fails (03 R56, R58). The failure is scored and the attempts fall by one. With attempts left
staging is flushed, the overlap rises by one up to 8, T, the cause and the cover at capture stand, and the splice waits
for its next re-read; the record's own REREAD run is cut (R61). With none left the fallback falls due. Where a staged
sector shows read address T and can be moved it is UNVERIFIED (R59): from the first such sector on, the staged sectors move
to the lane's end at their read addresses while these follow on by one and the sectors can be moved, the first behind an
UNVERIFIED seam, and the splice is over; the lane's tail follows the last moved sector, and the record's own REREAD run is
converted to REFILL or cut (R61). Where none shows T it is the GAP fallback (R60): the lane's entries stay, its tail is
stepped over the gap advance of the row as the scored failure leaves it, and the run is cut. -/
def Obligations.FailedSearchIsRetried : Prop :=
  ∀ (q : Search) (r : SpliceRec) (s : State),
    s.spl.search = some q → q.found = none → s.splice q.zone = some r → r.state = .searching →
    searchOutcome q (min r.overlap r.tail) s = none →
    let scored := healthEvent ((r.tail - 1) / 75) 16 .spliceFail s
    let address := fun i => (s.spl.staging[i]?).bind fun n => (s.slot n).record.readAddress
    let cut := fun (t : State) => ∀ x, s.rsc.run = some x → x.purpose = .reread → x.owner = q.zone →
      runOver x (beginEvent s) t ∧ halted x (beginEvent s) t
    (2 ≤ r.attemptsLeft → ∃ t, exec .searchDone s = .next (endEvent t) ∧ retriedAs q.zone r t ∧ cut t
      ∧ t.sfm = scored.sfm ∧ (∀ z, laneKept z s t) ∧ t.zone = s.zone ∧ t.cne = s.cne ∧ sameDisc s t)
    ∧ (∀ k n, r.attemptsLeft ≤ 1 → s.spl.staging[k]? = some n → address k = some r.tail →
      (∀ i, i < k → address i ≠ some r.tail) → movable q.zone 0 r.tail s →
      ∃ t, exec .searchDone s = .next (endEvent t)
        ∧ unverifiedJoined q.zone r s.spl.staging address k n False s (beginEvent s) t
        ∧ t.sfm = scored.sfm ∧ zoneKept q.zone.other s t ∧ sameDisc s t)
    ∧ (r.attemptsLeft ≤ 1 → (∀ i, address i ≠ some r.tail) → (s.ctl q.zone).state = .playing →
      ∃ t, exec .searchDone s = .next (endEvent t) ∧ gapStepped q.zone r s t ∧ cut t
        ∧ (t.lane q.zone).entries = (s.lane q.zone).entries
        ∧ t.sfm = scored.sfm ∧ zoneKept q.zone.other s t ∧ sameDisc s t)

/-- An accepted search (03 R56, R57, R61). At SEARCH_DONE, where the continuation position c = p + W lies in a staged sector
that can be moved, staged sectors from index k = c ÷ 588 on move to the lane's end at T − o + k and after it, the first from
pair c mod 588 behind a VERIFIED seam; the moves go on until staging ends, or until the next sector would be the lane's
449th entry or lie at or beyond the end of the appending track; staging is empty, the splice over, its SPLICE
report giving the match offset p − (o × 588 − W) (R54, R62; for o = 0 LOG 40), the lane's tail follows the last moved sector,
and the record's own REREAD run is converted to REFILL or cut. Where staged sector k has not come
yet the join waits for it while that run is outstanding, and otherwise counts as a failed attempt (with only the other
zone's run outstanding too, LOG 33); the sector that then comes completes it, and where it is the last its run counts that
run completes too (02 R25). -/
def Obligations.AcceptedSearchJoins : Prop :=
  (∀ (q : Search) (r : SpliceRec) (p : Nat) (s : State),
    s.spl.search = some q → q.found = none → s.splice q.zone = some r → r.state = .searching →
    searchOutcome q (min r.overlap r.tail) s = some p →
    let k := (p + q.window.length) / 588
    let a := r.tail - min r.overlap r.tail + k
    let owned := ∃ x, s.rsc.run = some x ∧ x.purpose = .reread ∧ x.owner = q.zone
    (∀ n, s.spl.staging[k]? = some n → movable q.zone 0 a s →
      ∃ t m, exec .searchDone s = .next (endEvent t)
        ∧ k + 1 + m ≤ s.spl.staging.length
        ∧ (∀ j, j ≤ m → movable q.zone j (a + j) s)
        ∧ (k + 1 + m = s.spl.staging.length ∨ ¬ movable q.zone (m + 1) (a + 1 + m) s)
        ∧ (t.lane q.zone).entries = (s.lane q.zone).entries ++
            (⟨n, a, (s.lane q.zone).appending.getD 0, (p + q.window.length) % 588, .verified⟩ ::
              (List.range m).map fun j =>
                (⟨s.spl.staging.getD (k + 1 + j) 0, a + 1 + j, (s.lane q.zone).appending.getD 0, 0, .none⟩ : Entry))
        ∧ t.splice q.zone = none ∧ t.spl.staging = [] ∧ t.spl.search = none
        ∧ tailBehind q.zone (a + m) s t
        ∧ (let report := Report.splice ⟨q.zone, r.cause, .verified, r.tail, r.cover, r.attemptsMade, some a,
              some ((p + q.window.length) % 588), some ((p : Int) - ((min r.overlap r.tail : Nat) * 588 - q.window.length))⟩
          s.dlp.threshold < levelOf report s → report ∈ t.dlp.reports)
        ∧ (∀ x, s.rsc.run = some x → x.purpose = .reread → x.owner = q.zone →
            joinedRun q.zone x (a + m) (k + 1 + m = s.spl.staging.length) False s (beginEvent s) t)
        ∧ t.sfm = s.sfm ∧ zoneKept q.zone.other s t ∧ sameDisc s t)
    ∧ (s.spl.staging.length ≤ k → owned →
      exec .searchDone s = .next (endEvent { beginEvent s with
        spl := { s.spl with search := some { q with found := some p } } }))
    ∧ (s.spl.staging.length ≤ k → ¬ owned →
      ∃ t, exec .searchDone s = .next (endEvent t)
        ∧ t.sfm = (healthEvent ((r.tail - 1) / 75) 16 .spliceFail s).sfm
        ∧ (2 ≤ r.attemptsLeft → retriedAs q.zone r t ∧ ∀ y, laneKept y s t)
        ∧ (r.attemptsLeft ≤ 1 → t.splice q.zone = none)))
  ∧ ∀ (f : SectorFrame) (x : Run) (q : Search) (r : SpliceRec) (p n : Nat) (rest : List Nat) (s : State),
    s.inp ≠ .waitIdle → s.rsc.run = some x → f.runId.toNat = x.id → x.settleLeft = 0 → x.purpose = .reread →
    x.owner = q.zone → s.spl.search = some q → q.found = some p →
    s.splice q.zone = some r → r.state = .searching → (p + q.window.length) / 588 = s.spl.staging.length →
    s.spl.staging.length < 12 → s.sst.free = n :: rest → n < s.sst.slots.length →
    let a := r.tail - min r.overlap r.tail + s.spl.staging.length
    movable q.zone 0 a s →
    ∃ t, exec (.sector f) s = .next (endEvent t)
      ∧ (t.lane q.zone).entries = (s.lane q.zone).entries ++
          [⟨n, a, (s.lane q.zone).appending.getD 0, (p + q.window.length) % 588, .verified⟩]
      ∧ (t.slot n).record = ⟨f.readAddress, standardFlags f.flags, f.pairs⟩
      ∧ t.splice q.zone = none ∧ t.spl.staging = [] ∧ t.spl.search = none
      ∧ tailBehind q.zone a s t
      ∧ joinedRun q.zone
          { x with received := x.received + 1, addressRead := x.addressRead || f.readAddress.isSome } a True
          (x.received + 1 = x.count) s
          (rearm (framed s)) t
      ∧ t.sfm = (sectorEvent f s).sfm ∧ zoneKept q.zone.other s t ∧ sameDisc s t

/-- The search (03 R53 to R56). The window is the lane's last W pairs, gathered over the entries from the last one behind a
seam on, each from its first pair still ahead. A candidate's score is the number of positions at which neither pair is
flagged and both samples differ by at most the tolerance; the best has the highest score, is nearest the expected position
among equals, and the lowest among those. The stream is the first o + 1 staged sectors, the expected position o × 588 − W
(below 0 where o = 0, LOG 40), and the best candidate is accepted exactly when its score is at least U − X. -/
def Obligations.SearchTakesTheBestCandidate : Prop :=
  let pairScore := fun (tol : Nat) (x y : MarkedPair) => !x.flagged && !y.flagged
    && decide ((x.pair.left.toInt - y.pair.left.toInt).natAbs ≤ tol)
    && decide ((x.pair.right.toInt - y.pair.right.toInt).natAbs ≤ tol)
  (∀ (ref st : List MarkedPair) (tol : Nat) (expected : Int), ref.length ≤ st.length →
    let score := fun p => ((List.range ref.length).filter fun i =>
      match ref[i]?, st[p + i]? with
      | some x, some y => pairScore tol x y
      | _, _ => false).length
    let far := fun p => ((p : Int) - expected).natAbs
    let best := bestCandidate ref tol expected st
    best.1 ≤ st.length - ref.length ∧ best.2 = score best.1
      ∧ ∀ p, p ≤ st.length - ref.length → p ≠ best.1 →
          score p < best.2 ∨ (score p = best.2 ∧ (far best.1 < far p ∨ (far best.1 = far p ∧ best.1 < p))))
  ∧ (∀ (q : Search) (o : Nat) (s : State), o + 1 ≤ s.spl.staging.length → q.window.length ≤ 588 →
    let at_ := fun j =>
      let rec_ := (s.slot (s.spl.staging.getD (j / 588) 0)).record
      (⟨rec_.pairs.getD (j % 588) ⟨0#16, 0#16⟩, flaggedAt rec_.flags (j % 588)⟩ : MarkedPair)
    let last := (o + 1) * 588 - q.window.length
    let score := fun p => ((List.range q.window.length).filter fun i =>
      match q.window[i]? with
      | some x => pairScore q.tolerance x (at_ (p + i))
      | none => false).length
    let far := fun p => ((p : Int) - ((o : Int) * 588 - q.window.length)).natAbs
    let enough := fun p => (q.window.filter fun x => !x.flagged).length ≤ score p + q.mismatches
    (searchOutcome q o s = none ↔ ∀ p, p ≤ last → ¬ enough p)
      ∧ ∀ p, searchOutcome q o s = some p → p ≤ last ∧ enough p
          ∧ ∀ x, x ≤ last → x ≠ p →
              score x < score p ∨ (score x = score p ∧ (far p < far x ∨ (far p = far x ∧ p < x))))
  ∧ ∀ (z : Zone) (w k : Nat) (s : State), (laneSlots z s).Nodup →
    (∀ i e, (s.lane z).entries[i]? = some e → k < i → e.seam = .none) →
    (∀ e, (s.lane z).entries[k]? = some e → e.seam ≠ .none ∨ k = 0) →
    let first := fun (e : Entry) =>
      if (s.lane z).entries.head? = some e then (s.lane z).playPos.getD e.offset else e.offset
    let ahead := ((s.lane z).entries.drop k).flatMap fun e =>
      (List.range (588 - first e)).map fun i =>
        (⟨(s.slot e.slot).record.pairs.getD (first e + i) ⟨0#16, 0#16⟩,
          flaggedAt (s.slot e.slot).record.flags (first e + i)⟩ : MarkedPair)
    k < (s.lane z).entries.length → windowOf z w s = ahead.drop (ahead.length - w)

/-- SHOCK and FOCUS_LOST (02 R38; 03 R44, R45, R46, R63; 01 R14, R15; 08 R132). A CUE or REFILL run whose owner has no
attempt in flight ends with a READ HALT; the owner lane loses at most r entries of the current run from its tail, r of the row for
granule(A − 1), and exactly r, T being the earliest one's address, where the last r entries pass the tests of 01 R14 and
R15; and the owner gets a splice record with T the lane's tail, its cover, and the retry budget and overlap of the row for
granule(T − 1). After a FOCUS_LOST focus is lost and no run follows. The other lane may only lose entries from its tail.
An attempt in flight is aborted (R63): with attempts left its record waits again with one fewer and one sector more of
overlap, and otherwise the splice ends by the GAP fallback; its own REREAD run is over with a READ HALT, and the other
zone's CUE or REFILL run, over likewise, starts a splice of its own (in which order, LOG 34; the owner of such a run has no splice, a clause of the law of lane
order). With no run outstanding and no attempt in flight they start nothing (R44); FOCUS_LOST still changes focus, with
its report. -/
def Obligations.SkipMarkStartsASplice : Prop :=
  (∀ (r : Run) (s : State), s.inp ≠ .waitIdle →
    s.rsc.run = some r → r.purpose ≠ .reread → holdsStaging r.owner s = false →
    let n := (rowOfGranule s (((s.lane r.owner).tail.getD 0 - 1) / 75)).rewind
    let captured := fun (cause : SpliceCause) (t : State) (q : SpliceRec) =>
      t.splice r.owner = some q ∧ q.cause = cause
        ∧ q.tail = (t.lane r.owner).tail.getD 0 ∧ q.cover = cover r.owner t
        ∧ q.attemptsLeft = (rowOfGranule s ((q.tail - 1) / 75)).retry
        ∧ q.overlap = (rowOfGranule s ((q.tail - 1) / 75)).overlap
        ∧ (∃ k, k ≤ n ∧ k ≤ (s.lane r.owner).runCount
            ∧ (t.lane r.owner).entries = (s.lane r.owner).entries.take ((s.lane r.owner).entries.length - k))
        ∧ (rewindsWhole r.owner n s → rewound r.owner n q s t)
        ∧ runOver r (framed s) t ∧ halted r (framed s) t ∧ t.sfm = s.sfm ∧ t.ttb = s.ttb
        ∧ (holdsStaging r.owner.other s = false →
            t.zone = s.zone ∧ ∃ k, (t.lane r.owner.other).entries = (s.lane r.owner.other).entries.take k)
    (∃ t q, exec .shock s = .next (endEvent t) ∧ captured .shock t q ∧ t.mmn = s.mmn)
    ∧ (∃ t q, exec .focusLost s = .next (endEvent t) ∧ captured .focus t q ∧ q.state = .waiting ∧ q.attemptsMade = 0
        ∧ t.rsc.run = none ∧ t.mmn = { s.mmn with focusHeld := false }))
  ∧ (∀ (z : Zone) (q : SpliceRec) (s : State), s.inp ≠ .waitIdle →
    s.splice z = some q → q.state ≠ .waiting → holdsStaging z.other s = false →
    (∀ r, s.rsc.run = some r → r.purpose = .reread ∨ r.owner = z.other) →
    let aborted := fun (t : State) =>
      (2 ≤ q.attemptsLeft → retriedAs z q t) ∧ (q.attemptsLeft ≤ 1 → gapStepped z q s t)
        ∧ (∀ r, s.rsc.run = some r → runOver r s t ∧ halted r (framed s) t)
        ∧ (∀ r, s.rsc.run = some r → r.purpose ≠ .reread → r.owner = z.other → (t.splice r.owner).isSome = true)
        ∧ ((∀ r, s.rsc.run = some r → r.purpose = .reread) → zoneKept z.other s t
            ∧ (2 ≤ q.attemptsLeft → ∀ y, laneKept y s t))
        ∧ t.sfm = s.sfm ∧ t.ttb = s.ttb
    (∃ t, exec .shock s = .next (endEvent t) ∧ aborted t ∧ t.mmn = s.mmn)
      ∧ ∃ t, exec .focusLost s = .next (endEvent t) ∧ aborted t ∧ t.rsc.run = none
        ∧ t.mmn = { s.mmn with focusHeld := false })
  ∧ ∀ s : State, s.inp ≠ .waitIdle → s.rsc.run = none → holdsStaging .a s = false → holdsStaging .b s = false →
    (∃ t, exec .shock s = .next (endEvent t) ∧ onlyScheduling (framed s) t
        ∧ ∀ z, t.splice z = none ↔ s.splice z = none)
    ∧ ∃ t, exec .focusLost s = .next (endEvent t) ∧ t.splice .a = s.splice .a ∧ t.splice .b = s.splice .b
        ∧ onlyScheduling (if s.mmn.focusHeld then
            post (.discState s.mmn.disc s.mmn.disc false .focusLost)
              { framed s with mmn := { s.mmn with focusHeld := false } }
          else framed s) t

/-! ## Frames of audio -/

/-- A FRAME_DUE in which every pair is silent (05 R84, 06 R118): a MUTED frame of 147 zero pairs becomes the zone's due
frame, and nothing else changes. A zone whose cadence timer is stopped has no FRAME_DUE (LOG 28). -/
def Obligations.SilentFrameIsMuted : Prop :=
  ∀ (z : Zone) (s : State),
    (s.dlp.cadence.get z = false → exec (.frameDue z) s = .next (endEvent (beginEvent s)))
    ∧ (s.dlp.cadence.get z = true → (s.ctl z).state = .idle →
        exec (.frameDue z) s = .next (endEvent { beginEvent s with
          dlp := { (beginEvent s).dlp with
            due := (beginEvent s).dlp.due.set z
              (some ⟨z, true, 0, 0, 0, List.replicate 147 ⟨0#16, 0#16⟩⟩) } }))
    ∧ (s.dlp.cadence.get z = true →
        (s.ctl z).state = .cueing
          ∨ (((s.ctl z).state = .paused ∨ (s.ctl z).state = .starved) ∧ (s.conc z).gain = 0) →
        ∀ p, position z s = some p →
        exec (.frameDue z) s = .next (endEvent { beginEvent s with
          dlp := { (beginEvent s).dlp with
            due := (beginEvent s).dlp.due.set z
              (some ⟨z, true, activeTrack z s, p.1, p.2, List.replicate 147 ⟨0#16, 0#16⟩⟩) } }))

/-- FRAME_DUE (05 R84, R85; 06 R118; 09 R151): 147 pairs are produced in turn, with their reports in that order, and their
frame, MUTED where all are silent and labelled as the first, becomes the zone's due frame. Of a PLAYING zone at full gain,
in mode PASS, with 147 unflagged pairs to take from its head entry and no GAP or UNVERIFIED seam in its lane behind it (01
R6; 05 R91, R92), the frame holds those pairs unchanged, the play position is 147 pairs on, and the last pair is held. The
pairs of every frame, in PLAYING, in the pause fade and in the stop fade: a PLAYING zone whose lane has no pair to give
makes a held one on the way to silence, and is STARVED with its two reports (06 R104), or, with nothing left to read, in
IDLE, those two and then the program end's posted (R105); a PAUSED zone whose lane is empty and a STARVED one make held
pairs while g is above 0 (05 R84, R93, R95); a lane pair leaves the play position one pair on; at pair 587 of the head entry
that entry leaves, its slot loses a holder, and is released where it was the last, and the entry behind it is played from
its first pair (01 R2, R6); at the pair that empties a lane with nothing left to read the zone goes to IDLE with its program
end's reports, behind a CONCEALED of that pair (R105); at the first pair of the boundary entry, an unflagged one below pair
587, NEXT becomes ACTIVE, its program entry leaves the list, and a TRACK-CHANGE is reported (R107), which is the only report
of a swap in a stop fade too: that is the model's choice, since R114 names such a swap among the changes that post a
ZONE-STATE report (LOG 39); at the pair at which g reaches 0 under STOP the zone goes to IDLE with its lane flushed (05 R94,
06 R114), with a ZONE-STATE report of cause STOP unless its program ends there (LOG 24); and the pairs after it are silent,
as those of a frozen PAUSED zone are, and leave the position where it is (05 R93). That the shortfall's pair is held, its
tests after it, is LOG 25. -/
def Obligations.CleanFramePlaysTheLane : Prop :=
  (∀ (z : Zone) (s : State), s.dlp.cadence.get z = true →
    ∃ (st : Nat → State) (f : AudioFrame), st 0 = beginEvent s
      ∧ (∀ k, k < 147 → st (k + 1) = (producePair z (inOrder (st k))).2)
      ∧ exec (.frameDue z) s = .next (endEvent { st 147 with dlp := { (st 147).dlp with
          due := (st 147).dlp.due.set z (some f) } })
      ∧ f.zone = z ∧ f.pairs = (List.range 147).map (fun k => (producePair z (inOrder (st k))).1.pair)
      ∧ (f.muted = true ↔ ∀ k, k < 147 → (producePair z (inOrder (st k))).1.kind = .silent)
      ∧ (let l := (producePair z (inOrder (st 0))).1.label
        f.track = l.track ∧ f.address = l.address ∧ f.offset = l.offset))
  ∧ (∀ (z : Zone) (e : Entry) (rest : List Entry) (pos : Nat) (s : State),
    s.dlp.cadence.get z = true → (s.ctl z).state = .playing →
    (s.lane z).entries = e :: rest → (s.lane z).playPos = some pos → pos ≤ 440 → (s.lane z).boundary ≠ .entry e.slot →
    (s.slot e.slot).record.pairs.length = 588 →
    (∀ i, i < 147 → flaggedAt (s.slot e.slot).record.flags (pos + i) = false) →
    (∀ f ∈ rest, f.seam ≠ .gap ∧ f.seam ≠ .unverified) →
    (s.conc z).mode = .pass → (s.conc z).gain = 256 → (s.conc z).causes = ⟨false, false, false, false, false⟩ →
    ∃ t, exec (.frameDue z) s = .next (endEvent t)
      ∧ t.dlp.due.get z = some
          ⟨z, false, e.track, e.address, pos, ((s.slot e.slot).record.pairs.drop pos).take 147⟩
      ∧ t.lane z = { s.lane z with playPos := some (pos + 147), runCount := (t.lane z).runCount }
      ∧ t.conc z = ⟨(s.slot e.slot).record.pairs.getD (pos + 146) ⟨0#16, 0#16⟩, .pass, 256, 256,
          ⟨false, false, false, false, false⟩⟩
      ∧ t.ctl z = s.ctl z ∧ zoneKept z.other s t ∧ t.sst.slots = s.sst.slots ∧ t.sst.free = s.sst.free)
  ∧ (∀ (z : Zone) (s : State), (s.ctl z).state = .playing → (s.lane z).entries = [] →
    ¬ stopFadeEnds z s → 0 < (s.ctl z).setup.resume →
    let r := producePair z s
    let c := s.conc z
    let g := stepGain c.gain 0 (gainStep (s.ctl z).setup.fade)
    r.1.kind = .held ∧ r.1.pair = gainPair c.held g
      ∧ (sent s → isOpen z s = true ∨ (s.ctl z).next.isSome = true →
          onlyScheduling (post (.starved z (activeTrack z s) (position z s))
            (post (.zoneState z .playing .starved (activeTrack z s) (position z s) .shortfall)
              ((s.setCtl z { s.ctl z with state := .starved }).setConc z
                { c with gain := g, target := 0, causes := { c.causes with pause := false, starved := true } }))) r.2)
      ∧ (isOpen z s = false → (s.ctl z).next = none → idled z s r.2
          ∧ (sent s → s.evReports = 0 → r.2.dlp.reports = s.dlp.reports ++ aboveThreshold s
              (.zoneState z .playing .starved (activeTrack z s) (position z s) .shortfall
                :: .starved z (activeTrack z s) (position z s) :: programEndReports z .starved s))))
  ∧ (∀ (z : Zone) (s : State), sent s → ¬ stopFadeEnds z s → (s.conc z).gain ≠ 0 →
    ((s.ctl z).state = .starved ∨ ((s.ctl z).state = .paused ∧ (s.lane z).entries = [])) →
    let r := producePair z s
    let c := s.conc z
    let target := targetFor c.causes
    let g := stepGain c.gain target (gainStep (s.ctl z).setup.fade)
    r.1.kind = .held ∧ r.1.pair = gainPair c.held g
      ∧ onlyScheduling (s.setConc z { c with gain := g, target := target }) r.2)
  ∧ (∀ (z : Zone) (e : Entry) (rest : List Entry) (pos : Nat) (s : State), takesPairs z s →
    (s.lane z).entries = e :: rest → (s.lane z).playPos = some pos → pos < 587 → ¬ atBoundaryEntry z s →
    ¬ stopFadeEnds z s →
    let t := (producePair z s).2
    (producePair z s).1.kind = .lane ∧ (producePair z s).1.label = ⟨e.track, e.address, pos⟩
      ∧ t.lane z = { s.lane z with playPos := some (pos + 1), runCount := (t.lane z).runCount } ∧ t.ctl z = s.ctl z
      ∧ t.sst.slots = s.sst.slots ∧ t.sst.free = s.sst.free ∧ zoneKept z.other s t)
  ∧ (∀ (z : Zone) (s : State), takesPairs z s ∨ ((s.ctl z).state = .starved ∧ (s.conc z).gain ≠ 0) →
    stopFadeEnds z s → ¬ atBoundaryEntry z s →
    let r := producePair z s
    let old := if (s.ctl z).state = .playing ∧ (s.lane z).entries = [] then .starved else (s.ctl z).state
    let report := Report.zoneState z old .idle 0 none .stop
    r.1.kind ≠ .silent ∧ r.1.pair = ⟨0#16, 0#16⟩ ∧ idled z s r.2
      ∧ (0 < (s.ctl z).setup.resume → isOpen z s = true ∨ (s.ctl z).next.isSome = true →
          s.dlp.threshold < levelOf report s → report ∈ r.2.dlp.reports))
  ∧ (∀ (z : Zone) (s : State), (s.ctl z).state ∈ [ZoneState.idle, .cueing]
      ∨ ((s.ctl z).state ∈ [ZoneState.paused, .starved] ∧ (s.conc z).gain = 0) →
    (producePair z s).1.kind = .silent ∧ (producePair z s).1.pair = ⟨0#16, 0#16⟩ ∧ (producePair z s).2 = s)
  ∧ (∀ (z : Zone) (e : Entry) (s : State), takesPairs z s → (s.lane z).entries = [e] →
    (s.lane z).playPos = some 587 → isOpen z s = false → (s.ctl z).next = none →
    (producePair z s).1.kind = .lane ∧ idled z s (producePair z s).2
      ∧ (sent s → s.evReports = 0 → ∃ rs, (rs = [] ∨ ∃ why, rs = [.concealed z e.address 587 why])
          ∧ (producePair z s).2.dlp.reports
            = s.dlp.reports ++ aboveThreshold s (rs ++ programEndReports z (s.ctl z).state s)))
  ∧ (∀ (z : Zone) (e f : Entry) (rest : List Entry) (s : State), takesPairs z s →
    (s.lane z).entries = e :: f :: rest → (s.lane z).playPos = some 587 → ¬ atBoundaryEntry z s → ¬ stopFadeEnds z s →
    let t := (producePair z s).2
    (producePair z s).1.kind = .lane ∧ (producePair z s).1.label = ⟨e.track, e.address, 587⟩
      ∧ t.lane z = { s.lane z with entries := f :: rest, playPos := some f.offset, runCount := (t.lane z).runCount }
      ∧ ((s.slot e.slot).holders = 1 → t.sst.free = s.sst.free ++ [e.slot] ∧ (t.slot e.slot).holders = 0)
      ∧ (∀ n, (s.slot e.slot).holders = n + 2 → t.sst.free = s.sst.free ∧ (t.slot e.slot).holders = n + 1)
      ∧ (∀ n, (t.slot n).record = (s.slot n).record) ∧ (∀ n, n ≠ e.slot → t.slot n = s.slot n)
      ∧ (t.ctl z).state = (s.ctl z).state ∧ zoneKept z.other s t)
  ∧ (∀ (z : Zone) (e : Entry) (rest : List Entry) (n : NextCtx) (a : Active) (s : State), sent s →
    takesPairs z s → (s.lane z).entries = e :: rest → (s.lane z).boundary = .entry e.slot →
    (s.lane z).playPos = some e.offset → e.offset < 587 → (s.ctl z).next = some n → (s.ctl z).active = some a →
    s.splice z = none → ¬ stopFadeEnds z s → flaggedAt (s.slot e.slot).record.flags e.offset = false →
    let r := producePair z s
    let c := { s.ctl z with
      active := some ⟨n.track, n.start, n.stop⟩
      program := programAfter z n.origin s }
    r.1.kind = .lane ∧ r.1.label = ⟨e.track, e.address, e.offset⟩
      ∧ (r.2.ctl z).active = c.active ∧ (r.2.ctl z).program = c.program ∧ (r.2.ctl z).state = (s.ctl z).state
      ∧ (r.2.lane z).entries = (s.lane z).entries ∧ (r.2.lane z).playPos = some (e.offset + 1)
      ∧ ((s.lane z).tail ≠ some n.stop →
          onlyScheduling (post (.trackChange z a.track n.track n.start n.contiguous)
            (((s.setConc z (r.2.conc z)).setLane z
              { s.lane z with playPos := some (e.offset + 1), boundary := .absent }).setCtl z { c with next := none }))
            r.2))

/-- A FRAME_DUE of an enabled zone leaves a due frame of 147 pairs, and reaches nothing of the other zone (05 "nothing one
zone does reaches the other zone's concealment or gain", R84): not its controller, its concealment state, its lane or
its due frame; nor a slot's record, the disc's blocks, the surface map, the intake or the control queue. -/
def Obligations.FrameDueLeavesTheOtherZone : Prop :=
  ∀ (z : Zone) (s : State), s.dlp.cadence.get z = true →
    ∃ t f, exec (.frameDue z) s = .next (endEvent t)
      ∧ t.dlp.due.get z = some f ∧ f.zone = z ∧ f.pairs.length = 147
      ∧ zoneKept z.other s t ∧ t.dlp.due.get z.other = (beginEvent s).dlp.due.get z.other
      ∧ (∀ n, (t.slot n).record = (s.slot n).record)
      ∧ sameDisc s t ∧ t.sfm = s.sfm ∧ sameIntake s t

/-! ## Marks and the hold -/

/-- FOCUS_BACK (08 R132) and TRAY_RESUME (08 R134), with what they do in RSC (02 R37, R38): focus becomes held; HELD
becomes PRESENT with the hold timer stopped; MECH-FAULT is cleared with the failure count; and where reading becomes
allowed again with no run outstanding, the pickup is granted to a zone with demand. Outside HELD a TRAY_RESUME is
answered with LATE-RESUME alone. -/
def Obligations.MarksThatAllowReading : Prop :=
  ∀ s : State, s.inp ≠ .waitIdle →
    let granting := fun (t : State) =>
      t.rsc.mechFault = false ∧ t.rsc.failures = (if s.rsc.mechFault then 0 else s.rsc.failures)
        ∧ (s.rsc.run = none → readingAllowed s = false → readingAllowed t = true → t.rsc.run = none → granted t = none)
    (∃ t, exec .focusBack s = .next (endEvent t) ∧ granting t
      ∧ onlyScheduling (if s.mmn.focusHeld then framed s else
          post (.discState s.mmn.disc s.mmn.disc true .focusBack)
            { framed s with mmn := { s.mmn with focusHeld := true } }) t)
    ∧ (s.mmn.disc = .held → ∃ t, exec .trayResume s = .next (endEvent t) ∧ granting t
      ∧ onlyScheduling (post (.discState .held .present s.mmn.focusHeld .trayResume)
          { framed s with mmn := { s.mmn with disc := .present, holdTimer := none } }) t)
    ∧ (s.mmn.disc ≠ .held → exec .trayResume s = .next (endEvent (post (.lateResume s.mmn.disc) (framed s))))

/-- TRAY_HOLD (08 R133) and DISC_OUT (08 R135), in each disc state: in PRESENT the outstanding run ends without a READ HALT
(02 R38) and the hold timer is armed (08 R139); an attempt in flight is aborted uncounted, its staging flushed, its record
back to WAITING with its attempts and overlap as they were (03 R65). The fingerprint is retained at a DISC_OUT in PRESENT
and HELD; the table is emptied in LOADING and EMPTY (07 R128). -/
def Obligations.TrayHoldAndDiscOut : Prop :=
  ∀ s : State, s.inp ≠ .waitIdle →
    let stopped := fun (t : State) => t.rsc.run = none ∧ t.rsc.stall = (if s.rsc.run.isSome then none else s.rsc.stall)
      ∧ (∀ r, s.rsc.run = some r → t.rsc.prevOwner = some r.owner)
      ∧ (∀ z, t.splice z = (s.splice z).map fun q => { q with state := .waiting })
      ∧ t.dlp.requests = (framed s).dlp.requests.filter fun x =>
          match s.rsc.run with
          | some r => !isReadRun r.id x
          | none => true
    let flying := holdsStaging .a s = true ∨ holdsStaging .b s = true
    let u := if flying then flushStaging (framed s) else framed s
    (flying → u.spl.staging = [] ∧ u.spl.search = none ∧ (∀ n, n ∉ s.spl.staging → u.slot n = s.slot n)
      ∧ ∀ n ∈ s.spl.staging, (s.slot n).holders = 1 → n ∈ u.sst.free ∧ (u.slot n).holders = 0)
    ∧ (s.mmn.disc = .present →
      (∃ t, exec .trayHold s = .next (endEvent t) ∧ stopped t
        ∧ onlyScheduling (post (.discState .present .held s.mmn.focusHeld .trayHold)
            { u with mmn := { s.mmn with disc := .held, holdTimer := some s.mmn.holdLimit } }) t)
      ∧ ∃ t, exec .discOut s = .next (endEvent t) ∧ stopped t
        ∧ onlyScheduling (post (.discState .present .out s.mmn.focusHeld .discOut)
            { u with
              mmn := { s.mmn with disc := .out, holdTimer := some s.mmn.holdLimit, retained := s.ttb.fingerprint } }) t)
    ∧ (s.mmn.disc ≠ .present → exec .trayHold s = .next (endEvent (framed s)))
    ∧ (s.mmn.disc = .held → exec .discOut s = .next (endEvent (post (.discState .held .out s.mmn.focusHeld .discOut)
        { framed s with mmn := { s.mmn with disc := .out, retained := s.ttb.fingerprint } })))
    ∧ (s.mmn.disc = .out → exec .discOut s =
        .next (endEvent (post (.discState .out .out s.mmn.focusHeld .discOut) (framed s))))
    ∧ (s.mmn.disc = .reloading → exec .discOut s =
        .next (endEvent (post (.discState .reloading .out s.mmn.focusHeld .discOut)
          { framed s with mmn := { s.mmn with disc := .out } })))
    ∧ (s.mmn.disc = .loading → exec .discOut s =
        .next (endEvent (post (.discState .loading .empty s.mmn.focusHeld .discOut)
          { framed s with mmn := { s.mmn with disc := .empty }, ttb := ⟨.empty, [], none, none⟩ })))
    ∧ (s.mmn.disc = .empty → exec .discOut s =
        .next (endEvent (post (.discState .empty .empty s.mmn.focusHeld .discOut)
          { framed s with ttb := ⟨.empty, [], none, none⟩ })))

/-- DISC_IN (08 R136) changes no state in any disc state: a DISC-STATE report with equal old and new states is posted. In
WAIT-IDLE no mark is taken (09 R150). -/
def Obligations.DiscInOnlyReports : Prop :=
  ∀ s : State, s.inp ≠ .waitIdle →
    exec .discIn s = .next (endEvent (post (.discState s.mmn.disc s.mmn.disc s.mmn.focusHeld .discIn) (framed s)))

/-- HOLD_TIMER_EXPIRY while the timer runs (08 R139, R140; 01 R17; 04 R82; 06 R120; 07 R129): both zones go to IDLE with
their lanes flushed, contexts discarded, program lists emptied and splices ended; setups and repeat modes stay; the
surface map is emptied with its rows kept; the retained fingerprint goes and the timer stops; the disc state becomes
LOADING, with the table kept, in RELOADING, and EMPTY, with the table emptied, otherwise. The reports are posted in the order
of R141: HOLD-EXPIRED with the disc state at expiry; of zone A and then of zone B the SPLICE report of its splice, ABANDONED,
and a ZONE-STATE with cause TEARDOWN if it was not IDLE; and a DISC-STATE with cause HOLD-EXPIRY. -/
def Obligations.HoldExpiryTearsDown : Prop :=
  ∀ s : State, s.mmn.holdTimer.isSome = true →
    ∃ t, exec .holdTimerExpiry s = .next (endEvent t)
      ∧ (∀ z, t.lane z = Lane.empty ∧ t.splice z = none
          ∧ t.ctl z = { s.ctl z with
              state := .idle, active := none, next := none, readOverEnd := none, program := [] }
          ∧ ((s.ctl z).state ≠ .idle → t.conc z = Cne.silent))
      ∧ t.sfm = { s.sfm with records := [], recency := [] }
      ∧ t.mmn = { s.mmn with
          disc := if s.mmn.disc = .reloading then .loading else .empty, holdTimer := none, retained := none }
      ∧ t.ttb = (if s.mmn.disc = .reloading then s.ttb else ⟨.empty, [], none, none⟩)
      ∧ (∀ n, (t.slot n).record = (s.slot n).record) ∧ sameIntake s t
      ∧ (readingLaw s → t.dlp.reports = (beginEvent s).dlp.reports ++ aboveThreshold s
          (.holdExpired s.mmn.disc :: teardownReports .a s ++ teardownReports .b s
            ++ [.discState s.mmn.disc t.mmn.disc s.mmn.focusHeld .holdExpiry]))

/-! ## Table loads -/

/-- TABLE_OPEN (07 R122, 08 R137, R141): refused with DISC-PRESENT in PRESENT and HELD; in any other disc state every
entry is removed, lead-out and fingerprint become absent, the table is OPEN, EMPTY becomes LOADING and OUT RELOADING, and
the retained fingerprint is not touched. -/
def Obligations.TableOpenBeginsALoad : Prop :=
  ∀ s : State, taken (.tableOpen 1) s = true →
    ((s.mmn.disc = .present ∨ s.mmn.disc = .held) →
      exec (.tableOpen 1) s = .next (endEvent (post (.refused 0x01#8 .discPresent) (begun s))))
    ∧ ∀ old new : DiscState,
        (old, new) ∈ [(DiscState.empty, DiscState.loading), (.out, .reloading), (.loading, .loading), (.reloading, .reloading)] →
        s.mmn.disc = old →
        exec (.tableOpen 1) s = .next (endEvent (post (.discState old new s.mmn.focusHeld .tableOpen)
          { begun s with ttb := ⟨.opened, [], none, none⟩, mmn := { s.mmn with disc := new } }))

/-- TRACK_ENTRY (07 R123): the tests in their order, each failure refusing the command with its reason and leaving the
table as it was; an entry that passes is appended as the last, with no reply. -/
def Obligations.TrackEntryIsTestedInOrder : Prop :=
  ∀ (track kind : Byte) (start : BitVec 24) (s : State), taken (.trackEntry 6 track start kind) s = true →
    let refused := fun why => exec (.trackEntry 6 track start kind) s = .next (endEvent (post (.refused 0x02#8 why) (begun s)))
    let inRange := 1 ≤ track.toNat ∧ track.toNat ≤ 99 ∧ start.toNat ≤ 359999
    (s.ttb.state ≠ .opened → refused .notInState)
    ∧ (s.ttb.state = .opened → 2 ≤ kind.toNat → refused .badField)
    ∧ (s.ttb.state = .opened → kind.toNat < 2 →
        (¬ inRange → refused .badEntry)
        ∧ (inRange → ∀ e, s.ttb.entries.getLast? = some e → track.toNat ≠ e.number + 1 → refused .badEntry)
        ∧ (inRange → ∀ e, s.ttb.entries.getLast? = some e → start.toNat ≤ e.start → refused .badEntry)
        ∧ (inRange → (∀ e, s.ttb.entries.getLast? = some e → track.toNat = e.number + 1 ∧ e.start < start.toNat) →
            exec (.trackEntry 6 track start kind) s = .next (endEvent { begun s with
              ttb := { s.ttb with
                entries := s.ttb.entries ++ [⟨track.toNat, start.toNat, if kind = 0#8 then .audio else .data⟩] } })))

/-- TABLE_CLOSE (07 R124, R125, R126; 08 R138, R140; 02 R37): refused with NOT-IN-STATE and BAD-ENTRY as its tests give;
otherwise the table is CLOSED with its lead-out and fingerprint and MECH-FAULT is cleared. In LOADING the disc becomes
PRESENT; in RELOADING with an equal fingerprint too, with lanes and surface map kept, the timer stopped and the retained
fingerprint dropped; with an unequal one both zones are torn down and the map emptied first. In OUT, with a table that a
DISC_OUT left OPEN, the disc stays OUT with the retained fingerprint and the hold timer. A DISC-STATE report with cause
TABLE-CLOSE is posted in every case, behind the teardown's: DISC-CHANGED, and of zone A and then of zone B the SPLICE report of
its splice and its ZONE-STATE (R141). Then each zone that is not torn down retries its choice of NEXT against the table just
closed (07 R126, 06 R106), zone A first, which is the model's order (LOG 35), so that what a retry posts comes behind. Where the line was idle the first of
these reports may have left for it within the command, a retry having cut the run just granted (R153, LOG 5). -/
def Obligations.TableCloseDecides : Prop :=
  ∀ (count : Byte) (leadOut : BitVec 24) (s : State), taken (.tableClose 5 count leadOut) s = true →
    let closing := s.ttb.state = .opened ∧ 1 ≤ count.toNat ∧ count.toNat = s.ttb.entries.length
      ∧ leadOut.toNat ≤ 360000 ∧ ∀ e, s.ttb.entries.getLast? = some e → e.start < leadOut.toNat
    let fp := ((s.ttb.entries.map fun e => e.number * e.start).sum + leadOut.toNat * 100 + count.toNat) % 4294967296
    let closed := fun (t : State) =>
      t.ttb = ⟨.closed, s.ttb.entries, some leadOut.toNat, some fp⟩ ∧ t.rsc.mechFault = false
    let told := fun (new : DiscState) =>
      (begun s).dlp.reports ++ aboveThreshold s [.discState s.mmn.disc new s.mmn.focusHeld .tableClose]
    let goesOn := fun (t : State) =>
      t.sfm = s.sfm ∧ (∀ z, (t.lane z).entries = (s.lane z).entries)
        ∧ (∀ z, choiceRetried z { s with ttb := t.ttb } t)
        ∧ (∃ more, queuedAs (told t.mmn.disc ++ more) (begun s) t)
        ∧ ((∀ z, retriesSilently z s) → queuedAs (told t.mmn.disc) (begun s) t)
    (s.ttb.state ≠ .opened →
      exec (.tableClose 5 count leadOut) s = .next (endEvent (post (.refused 0x03#8 .notInState) (begun s))))
    ∧ (s.ttb.state = .opened → ¬ closing →
      exec (.tableClose 5 count leadOut) s = .next (endEvent (post (.refused 0x03#8 .badEntry) (begun s))))
    ∧ (closing → s.mmn.disc = .loading →
      ∃ t, exec (.tableClose 5 count leadOut) s = .next (endEvent t) ∧ closed t
        ∧ t.mmn = { s.mmn with disc := .present } ∧ goesOn t)
    ∧ (closing → s.mmn.disc = .out →
      ∃ t, exec (.tableClose 5 count leadOut) s = .next (endEvent t) ∧ closed t
        ∧ t.mmn = s.mmn ∧ (s.rsc.run = none → t.rsc.run = none) ∧ goesOn t)
    ∧ (closing → s.mmn.disc = .reloading → s.mmn.retained = some fp →
      ∃ t, exec (.tableClose 5 count leadOut) s = .next (endEvent t) ∧ closed t
        ∧ t.mmn = { s.mmn with disc := .present, holdTimer := none, retained := none } ∧ goesOn t)
    ∧ (closing → s.mmn.disc = .reloading → s.mmn.retained ≠ some fp →
      ∃ t, exec (.tableClose 5 count leadOut) s = .next (endEvent t) ∧ closed t
        ∧ t.mmn = { s.mmn with disc := .present, holdTimer := none, retained := none }
        ∧ t.sfm = { s.sfm with records := [], recency := [] }
        ∧ (∀ z, t.lane z = Lane.empty ∧ t.splice z = none
          ∧ t.ctl z = { s.ctl z with
              state := .idle, active := none, next := none, readOverEnd := none, program := [] })
        ∧ t.dlp.reports = (begun s).dlp.reports ++ aboveThreshold s
            (.discChanged (s.mmn.retained.getD 0) fp :: teardownReports .a s ++ teardownReports .b s
              ++ [.discState .reloading .present s.mmn.focusHeld .tableClose]))

/-! ## Settings and queries -/

/-- POLICY_LOAD (04 R78, R79): a state that is none of the three is refused with BAD-FIELD; otherwise the row of the state
is replaced whole, each field brought into its range, silently. The outstanding run, the splice records and the search
in flight are as they were. -/
def Obligations.PolicyLoadReplacesARow : Prop :=
  ∀ (state : Byte) (f : PolicyFields) (s : State), taken (.policyLoad 12 state f) s = true →
    let row : PolicyRow :=
      { retry := min f.retry.toNat 7
        settle := min f.settle.toNat 4
        overlap := max 1 (min f.overlap.toNat 8)
        speed := if f.speed.toNat ≤ 1 then .x1 else if f.speed.toNat = 2 then .x2 else .x4
        window := if f.window.toNat ≤ 23 then 16 else if f.window.toNat ≤ 47 then 32 else 64
        mismatches := min f.mismatches.toNat 16
        tolerance := f.tolerance.toNat
        lmax := min f.lmax.toNat 32
        rewind := min f.rewind.toNat 8
        gap := min f.gap.toNat 75 }
    (3 ≤ state.toNat →
      exec (.policyLoad 12 state f) s = .next (endEvent (post (.refused 0x04#8 .badField) (begun s))))
    ∧ (state = 0#8 → exec (.policyLoad 12 state f) s = .next (endEvent { begun s with sfm := { s.sfm with clean := row } }))
    ∧ (state = 1#8 → exec (.policyLoad 12 state f) s = .next (endEvent { begun s with sfm := { s.sfm with worn := row } }))
    ∧ (state = 2#8 → exec (.policyLoad 12 state f) s = .next (endEvent { begun s with sfm := { s.sfm with damaged := row } }))

/-- ZONE_SETUP (06 R99, R100; 01 R18; 09 R151): an enable or priority above 1 is refused with BAD-FIELD; otherwise the
setup is replaced whole, brought into order target, low water, resume, critical, fade; the cadence timer follows the
enable; a zone turned off goes to IDLE with its due frame discarded; a zone that is IDLE, PLAYING or PAUSED and stays
enabled sees no other change; a CUEING or STARVED zone that stays enabled plays where its cover reaches the new resume
watermark, with a ZONE-STATE report, and otherwise sees no other change while its lane is open and no NEXT is armed (R103,
R104). The order of the change of enable and the watermark tests is LOG 21. -/
def Obligations.ZoneSetupIsBroughtIntoOrder : Prop :=
  ∀ (zone enable priority : Byte) (target low resume critical fade : BitVec 16) (z : Zone) (s : State),
    let c := Instr.zoneSetup 14 zone enable priority target low resume critical fade
    taken c s = true → zoneOf zone = some z →
    let tg := min (max 32 (min target.toNat 448)) (488 - (s.ctl z.other).setup.target)
    let lw := max 2 (min low.toNat (tg - 1))
    let rs := max 2 (min resume.toNat lw)
    let su : Setup :=
      ⟨enable = 1#8, if priority = 0#8 then .high else .low, tg, lw, rs, max 1 (min critical.toNat (rs - 1)),
        max 1 (min fade.toNat 256)⟩
    (2 ≤ enable.toNat ∨ 2 ≤ priority.toNat → exec c s = .next (endEvent (post (.refused 0x05#8 .badField) (begun s))))
    ∧ (enable.toNat < 2 → priority.toNat < 2 →
        ∃ t, exec c s = .next (endEvent t) ∧ (t.ctl z).setup = su ∧ zoneKept z.other s t ∧ sameDisc s t ∧ t.sfm = s.sfm
          ∧ ((s.ctl z).setup.enabled = true → enable = 0#8 →
              (t.ctl z).state = .idle ∧ t.dlp.cadence.get z = false ∧ t.dlp.due.get z = none)
          ∧ ((s.ctl z).setup.enabled = false → enable = 1#8 → t.dlp.cadence.get z = true)
          ∧ ((s.ctl z).setup.enabled = su.enabled → (s.ctl z).state ∈ [ZoneState.idle, .playing, .paused] →
              onlyScheduling ((begun s).setCtl z { s.ctl z with setup := su }) t)
          ∧ ((s.ctl z).setup.enabled = su.enabled → (s.ctl z).state ∈ [ZoneState.cueing, .starved] →
              (rs ≤ cover z s →
                onlyScheduling (post (.zoneState z (s.ctl z).state .playing (activeTrack z s) (position z s) .cover)
                  (((begun s).setCtl z { s.ctl z with setup := su, state := .playing }).setConc z
                    { s.conc z with causes := { (s.conc z).causes with pause := false, starved := false } })) t)
              ∧ (cover z s < rs → isOpen z s = true → (s.ctl z).next = none →
                onlyScheduling ((begun s).setCtl z { s.ctl z with setup := su }) t)))

/-- MECHANISM_SETUP (02 R34, 08 R139) and REPORT_SETUP (10 R159, 11 R162): the settings are replaced, each brought into its
range; timers that run keep their expiry. -/
def Obligations.LimitsAndLevelsAreReplaced : Prop :=
  (∀ (first next : BitVec 16) (hold : Byte) (s : State), taken (.mechanismSetup 6 first next hold) s = true →
    exec (.mechanismSetup 6 first next hold) s = .next (endEvent { begun s with
      rsc := { s.rsc with
        firstLimit := max 100 (min first.toNat 5000), nextLimit := max 20 (min next.toNat 1000) }
      mmn := { s.mmn with holdLimit := max 1 (min hold.toNat 60) } }))
  ∧ (∀ (levels : List Byte) (threshold : Byte) (s : State), taken (.reportSetup 17 levels threshold) s = true →
    exec (.reportSetup 17 levels threshold) s = .next (endEvent { begun s with
      dlp := { (begun s).dlp with
        levels := levels.map fun l => min l.toNat 7, threshold := min threshold.toNat 7 } }))

/-- STATUS_QUERY (11 R164): the reply shows each item as it stands, with ACTIVE's track number and the number of frames
queued behind the query, and goes to the report queue whatever the threshold. -/
def Obligations.StatusShowsTheBlocks : Prop :=
  ∀ s : State, taken (.statusQuery 1) s = true →
    let d := (beginEvent s).dlp
    exec (.statusQuery 1) s = .next (endEvent (placeReport
      (.status
        ⟨(s.ctl .a).state, pairsAhead (s.lane .a) / 588, ((s.ctl .a).active.map (·.track)).getD 0,
          (s.ctl .b).state, pairsAhead (s.lane .b) / 588, ((s.ctl .b).active.map (·.track)).getD 0,
          s.mmn.disc, s.mmn.focusHeld, s.rsc.mechFault, s.cmi.length - 1,
          d.overrun, d.controlOverflow, d.reportLost, d.checkError, d.framingError,
          d.causePowerOn, d.causeLinkBreak, d.causeSoft⟩)
      (begun s)))

/-- MAP_QUERY (04 R81): the reply carries the start index as sent, the number of records held, and the records in granule
order with indices from the start index to the smaller of start index + 15 and records held − 1; it goes to the report
queue whatever the threshold. -/
def Obligations.MapQueryPages : Prop :=
  ∀ (start : Byte) (s : State), taken (.mapQuery 2 start) s = true →
    ∃ page, exec (.mapQuery 2 start) s =
        .next (endEvent (placeReport (.map start.toNat s.sfm.records.length page) (begun s)))
      ∧ page.length = min 16 (s.sfm.records.length - start.toNat)
      ∧ ∀ i, i < page.length → page[i]? = s.sfm.records[start.toNat + i]?

/-! ## Playback and programs -/

/-- PLAY (06 R111, R112, R103; 02 R37): on an enabled zone, with the disc PRESENT or HELD and the track an AUDIO track of
the table, the zone is cued at the track's start plus the offset, lowered to the track's last sector; the SPLICE report of its splice,
ABANDONED, if it has one, and a ZONE-STATE report of cause COMMAND with the new position are posted (R119), the first of which may
have left for an idle line (R153, LOG 5); MECH-FAULT is cleared. The refusals come in the order of R111 and change nothing. -/
def Obligations.PlayCuesTheTrack : Prop :=
  ∀ (zone track : Byte) (offset : BitVec 24) (z : Zone) (s : State),
    taken (.play 6 zone track offset) s = true → zoneOf zone = some z →
    let refused := fun why => exec (.play 6 zone track offset) s = .next (endEvent (post (.refused 0x10#8 why) (begun s)))
    let disc := s.mmn.disc = .present ∨ s.mmn.disc = .held
    ((s.ctl z).setup.enabled = false → refused .zoneDisabled)
    ∧ ((s.ctl z).setup.enabled = true → ¬ disc → refused .noDisc)
    ∧ ((s.ctl z).setup.enabled = true → disc → s.ttb.track track.toNat = none → refused .badTrack)
    ∧ ((s.ctl z).setup.enabled = true → disc → ∀ e, s.ttb.track track.toNat = some e → e.kind = .data →
        refused .dataTrack)
    ∧ ((s.ctl z).setup.enabled = true → disc → ∀ e b0 b1, s.ttb.track track.toNat = some e → e.kind = .audio →
        s.ttb.bounds track.toNat = some (b0, b1) → 0 < b1 → 0 < (s.ctl z).setup.resume →
        ∃ t, exec (.play 6 zone track offset) s = .next (endEvent t)
          ∧ cuedAt z (s.ctl z) track.toNat b0 b1 (min (b0 + offset.toNat) (b1 - 1)) s t
          ∧ t.rsc.mechFault = false ∧ t.cmi = s.cmi.drop 1 ∧ t.inp = s.inp)

/-- PAUSE, RESUME and STOP (06 R111, R113, R114, R119; 05 R93, R94, R95; 02 R37) on an enabled zone: PAUSE takes a PLAYING
or STARVED zone to PAUSED, RESUME a PAUSED one to PLAYING and clears MECH-FAULT, each with its ZONE-STATE report and the
mute causes that follow the state; STOP sets the STOP cause where the gain is above 0, and otherwise, or in CUEING,
takes the zone to IDLE at once. The store and the disc's blocks are not touched by PAUSE and RESUME. A disabled zone
refuses each with ZONE-DISABLED, and a state that does not take the command with NOT-IN-STATE. -/
def Obligations.PauseResumeStop : Prop :=
  ∀ (zone : Byte) (z : Zone) (s : State), zoneOf zone = some z →
    let on := (s.ctl z).setup.enabled = true
    let entered := fun (new : ZoneState) =>
      let u := ((begun s).setCtl z { s.ctl z with state := new }).setConc z
        { s.conc z with causes := { (s.conc z).causes with pause := new == .paused, starved := false } }
      post (.zoneState z (s.ctl z).state new (activeTrack z s) (position z s) .command) u
    (taken (.pause 2 zone) s = true → on → (s.ctl z).state = .playing ∨ (s.ctl z).state = .starved →
      ∃ t, exec (.pause 2 zone) s = .next (endEvent t) ∧ onlyScheduling (entered .paused) t)
    ∧ (taken (.resume 2 zone) s = true → on → (s.ctl z).state = .paused →
      ∃ t, exec (.resume 2 zone) s = .next (endEvent t) ∧ onlyScheduling (entered .playing) t ∧ t.rsc.mechFault = false)
    ∧ (taken (.stop 2 zone) s = true → on → (s.ctl z).state ∈ [ZoneState.playing, .paused, .starved] →
      0 < (s.conc z).gain →
      ∃ t, exec (.stop 2 zone) s = .next (endEvent t)
        ∧ onlyScheduling ((begun s).setConc z
            { s.conc z with causes := { (s.conc z).causes with stop := true } }) t)
    ∧ (taken (.stop 2 zone) s = true → on → (s.ctl z).state ≠ .idle →
      (s.conc z).gain = 0 ∨ (s.ctl z).state = .cueing →
      ∃ t, exec (.stop 2 zone) s = .next (endEvent t) ∧ idled z s t ∧ t.cmi = s.cmi.drop 1 ∧ t.inp = s.inp)
    ∧ (∀ c ∈ [Instr.pause 2 zone, .resume 2 zone, .stop 2 zone], taken c s = true →
      let refused := fun why => exec c s = .next (endEvent (post (.refused (codeOf c) why) (begun s)))
      (¬ on → refused .zoneDisabled)
      ∧ (on → (s.ctl z).state = .idle → refused .notInState)
      ∧ (on → c ≠ .stop 2 zone → (s.ctl z).state = .cueing → refused .notInState)
      ∧ (on → c = .pause 2 zone → (s.ctl z).state = .paused → refused .notInState)
      ∧ (on → c = .resume 2 zone → (s.ctl z).state ≠ .paused → refused .notInState))

/-- NEXT (06 R111, R116, R103, R105) on an enabled zone that is not IDLE, with the disc PRESENT or HELD: an armed NEXT
whose bounds stand in the table is cued at its start, its program entry leaving the list as at a swap, with a
TRACK-CHANGE report, contiguous no, behind the reports of the cue (R103, R119; LOG 5); where none is armed the track that the choice
gives now (R106) is cued so; where none is found, the zone ends its program, with the SPLICE report of its splice, ABANDONED, if
it has one, an END-OF-PROGRAM report of the last ACTIVE track, and a ZONE-STATE report of cause END-OF-PROGRAM. Otherwise it is
refused, in the order ZONE-DISABLED, NOT-IN-STATE, NO-DISC. -/
def Obligations.NextCommandMovesOn : Prop :=
  ∀ (zone : Byte) (z : Zone) (s : State), taken (.next 2 zone) s = true → zoneOf zone = some z →
    let on := (s.ctl z).setup.enabled = true
    let disc := s.mmn.disc = .present ∨ s.mmn.disc = .held
    let refused := fun why => exec (.next 2 zone) s = .next (endEvent (post (.refused 0x14#8 why) (begun s)))
    (¬ on → refused .zoneDisabled)
    ∧ (on → (s.ctl z).state = .idle → refused .notInState)
    ∧ (on → (s.ctl z).state ≠ .idle → ¬ disc → refused .noDisc)
    ∧ ∀ a : Active, on → (s.ctl z).state ≠ .idle → disc → (s.ctl z).active = some a → 0 < (s.ctl z).setup.resume →
      (∀ n, (s.ctl z).next = some n → s.ttb.bounds n.track = some (n.start, n.stop) → 0 < n.stop → n.start < n.stop →
        ∃ u, exec (.next 2 zone) s = .next (endEvent (post (.trackChange z a.track n.track n.start false) u))
          ∧ cuedAt z
              { s.ctl z with program := programAfter z n.origin s }
              n.track n.start n.stop n.start s u
          ∧ u.cmi = s.cmi.drop 1 ∧ u.inp = s.inp)
      ∧ (∀ m o b0 b1, (s.ctl z).next = none → choiceIs z a.track m o s → s.ttb.bounds m = some (b0, b1) → b0 < b1 →
        ∃ u, exec (.next 2 zone) s = .next (endEvent (post (.trackChange z a.track m b0 false) u))
          ∧ cuedAt z { s.ctl z with program := programAfter z o s } m b0 b1 b0 s u
          ∧ u.cmi = s.cmi.drop 1 ∧ u.inp = s.inp)
      ∧ ((s.ctl z).next = none → chosenNext z a.track a.stop s = none →
        ∃ t, exec (.next 2 zone) s = .next (endEvent t) ∧ idled z s t ∧ t.cmi = s.cmi.drop 1 ∧ t.inp = s.inp
          ∧ t.dlp.reports = (begun s).dlp.reports ++ aboveThreshold s (programEndReports z (s.ctl z).state s))

/-- PREVIOUS (06 R117) and LOCATE (06 R115, 02 R37) on an enabled zone that is not IDLE, with the disc PRESENT or HELD and
ACTIVE's track in the table: PREVIOUS cues ACTIVE's start where the position lies more than 150 sectors beyond it, or
where the table holds no AUDIO track below ACTIVE's, and otherwise the highest such track, with a TRACK-CHANGE report;
LOCATE cues the position's address plus the offset, clamped into ACTIVE's track, and clears MECH-FAULT. Each cue posts its
reports as PLAY's does (R103, R119; LOG 5). Otherwise each is
refused, in the order ZONE-DISABLED, NOT-IN-STATE, NO-DISC (06 R111). -/
def Obligations.PreviousAndLocateCue : Prop :=
  ∀ (zone : Byte) (z : Zone) (s : State), zoneOf zone = some z →
    let on := (s.ctl z).setup.enabled = true
    let disc := s.mmn.disc = .present ∨ s.mmn.disc = .held
    (∀ (c : Instr) (offset : BitVec 24), c = .previous 2 zone ∨ c = .locate 5 zone offset → taken c s = true →
      let refused := fun why => exec c s = .next (endEvent (post (.refused (codeOf c) why) (begun s)))
      (¬ on → refused .zoneDisabled)
      ∧ (on → (s.ctl z).state = .idle → refused .notInState)
      ∧ (on → (s.ctl z).state ≠ .idle → ¬ disc → refused .noDisc))
    ∧ ∀ (a : Active) (p : Nat × Nat), on → (s.ctl z).state ≠ .idle → disc →
      (s.ctl z).active = some a → s.ttb.bounds a.track = some (a.start, a.stop) → a.start < a.stop →
      position z s = some p → 0 < (s.ctl z).setup.resume →
      (taken (.previous 2 zone) s = true →
        (a.start + 150 < p.1 ∨ s.ttb.highestBelow a.track = none →
          ∃ t, exec (.previous 2 zone) s = .next (endEvent t)
            ∧ cuedAt z (s.ctl z) a.track a.start a.stop a.start s t)
        ∧ (p.1 ≤ a.start + 150 → ∀ n b0 b1, s.ttb.highestBelow a.track = some n → n ≠ a.track →
            s.ttb.bounds n = some (b0, b1) → b0 < b1 →
          ∃ u, exec (.previous 2 zone) s = .next (endEvent (post (.trackChange z a.track n b0 false) u))
            ∧ cuedAt z (s.ctl z) n b0 b1 b0 s u))
      ∧ ∀ offset : BitVec 24, taken (.locate 5 zone offset) s = true →
          ∃ t, exec (.locate 5 zone offset) s = .next (endEvent t) ∧ t.rsc.mechFault = false
            ∧ cuedAt z (s.ctl z) a.track a.start a.stop
                (max (a.start : Int) (min ((a.stop : Int) - 1) ((p.1 : Int) + offset.toInt))).toNat s t

/-- The program commands (06 R110; 10 R158). APPEND puts an AUDIO track of the table at the tail of a list of fewer than 32 and
retries the choice (06 R106; 01 R8): where the lane's tail stands at ACTIVE's end with no NEXT armed, the track chosen is
armed, and a NEXT that is armed stays (06 R107), but that one due to be read over is used up first (R108).
While no NEXT is armed REMOVE takes the entry at a position, counted from 1, CLEAR empties the list, and a REPEAT that changes
the mode retries the choice; with a NEXT armed these withdraw it (`EditsWithdrawAnArmedNext`). A REPEAT with the mode already
in force changes nothing, and the refusals change nothing, with a NEXT armed or without. -/
def Obligations.ProgramCommandsEditTheList : Prop :=
  ∀ (zone : Byte) (z : Zone) (s : State), zoneOf zone = some z →
    (∀ track : Byte, taken (.programAppend 3 zone track) s = true →
      let refused := fun why => exec (.programAppend 3 zone track) s = .next (endEvent (post (.refused 0x20#8 why) (begun s)))
      (s.ttb.track track.toNat = none → refused .badTrack)
      ∧ (∀ e, s.ttb.track track.toNat = some e → e.kind = .data → refused .dataTrack)
      ∧ (∀ e, s.ttb.track track.toNat = some e → e.kind = .audio → 32 ≤ (s.ctl z).program.length → refused .listFull)
      ∧ (∀ e, s.ttb.track track.toNat = some e → e.kind = .audio → (s.ctl z).program.length < 32 →
          let edited := s.setCtl z { s.ctl z with program := (s.ctl z).program ++ [track.toNat] }
          ∃ t, exec (.programAppend 3 zone track) s = .next (endEvent t)
            ∧ ((∀ n, ¬ readOverDue z n s) → (t.ctl z).program = (s.ctl z).program ++ [track.toNat])
            ∧ (∀ n, readOverDue z n s → (t.ctl z).program = programAfter z n.origin edited)
            ∧ (t.ctl z).setup = (s.ctl z).setup ∧ (t.ctl z).repeatMode = (s.ctl z).repeatMode
            ∧ choiceRetried z edited t ∧ zoneKept z.other s t ∧ sameDisc s t ∧ t.sfm = s.sfm))
    ∧ (∀ position : Byte, taken (.programRemove 3 zone position) s = true →
      (position = 0#8 ∨ (s.ctl z).program.length < position.toNat →
        exec (.programRemove 3 zone position) s = .next (endEvent (post (.refused 0x21#8 .badField) (begun s))))
      ∧ ((s.ctl z).next = none → 1 ≤ position.toNat → position.toNat ≤ (s.ctl z).program.length →
        exec (.programRemove 3 zone position) s = .next (endEvent ((begun s).setCtl z
          { s.ctl z with program := (s.ctl z).program.eraseIdx (position.toNat - 1) }))))
    ∧ (taken (.programClear 2 zone) s = true → (s.ctl z).next = none →
      exec (.programClear 2 zone) s = .next (endEvent ((begun s).setCtl z { s.ctl z with program := [] })))
    ∧ ∀ mode : Byte, taken (.repeatMode 3 zone mode) s = true →
      (3 ≤ mode.toNat → exec (.repeatMode 3 zone mode) s = .next (endEvent (post (.refused 0x23#8 .badField) (begun s))))
      ∧ ∀ m, modeOf mode = some m →
        ((s.ctl z).repeatMode = m → exec (.repeatMode 3 zone mode) s = .next (endEvent (begun s)))
        ∧ ((s.ctl z).repeatMode ≠ m → (s.ctl z).next = none →
          ∃ t, exec (.repeatMode 3 zone mode) s = .next (endEvent t) ∧ (t.ctl z).repeatMode = m
            ∧ (t.ctl z).program = (s.ctl z).program ∧ (t.ctl z).setup = (s.ctl z).setup
            ∧ choiceRetried z (s.setCtl z { s.ctl z with repeatMode := m }) t
            ∧ zoneKept z.other s t ∧ sameDisc s t ∧ t.sfm = s.sfm)

/-- PROGRAM_CLEAR, PROGRAM_REMOVE and a REPEAT that changes the mode, with a NEXT armed (06 R109, R106; 01 R16). The edit is
made; the boundary entry and every entry behind it leave the lane, also where the boundary entry is the head (LOG 41), and an
interpolation that rested on one is dropped (05 R90); an outstanding run that read on beyond ACTIVE's end is cut (02 R32);
the track that the choice now gives is armed in place of the withdrawn one, and otherwise NEXT is absent with the lane's
tail at ACTIVE's end. A splice goes on where its T is ACTIVE's end and the lane's tail stays there, and otherwise ends (03
R66). A PLAYING or PAUSED zone stays so; a CUEING or STARVED one plays what is left in its lane, waits for an armed track
with none left, and with neither ends its program (06 R103 to R105). -/
def Obligations.EditsWithdrawAnArmedNext : Prop :=
  ∀ (c : Instr) (zone : Byte) (z : Zone) (list : List Nat) (mode : RepeatMode) (a : Active) (n : NextCtx) (s : State),
    taken c s = true → zoneOf zone = some z → (s.ctl z).active = some a → (s.ctl z).next = some n →
    (s.ctl z).state ≠ .idle → 0 < (s.ctl z).setup.resume →
    ((c = .programClear 2 zone ∧ list = [] ∧ mode = (s.ctl z).repeatMode)
      ∨ (∃ position : Byte, c = .programRemove 3 zone position ∧ 1 ≤ position.toNat
          ∧ position.toNat ≤ (s.ctl z).program.length ∧ list = (s.ctl z).program.eraseIdx (position.toNat - 1)
          ∧ mode = (s.ctl z).repeatMode)
      ∨ (∃ m : Byte, c = .repeatMode 3 zone m ∧ modeOf m = some mode ∧ mode ≠ (s.ctl z).repeatMode
          ∧ list = (s.ctl z).program)) →
    let edited := s.setCtl z { s.ctl z with program := list, repeatMode := mode }
    let st := (s.ctl z).state
    let kept := match (s.lane z).boundary with
      | .entry b => (s.lane z).entries.takeWhile fun e => e.slot != b
      | _ => (s.lane z).entries
    let waits := (st = .cueing ∨ st = .starved) ∧ kept = []
    let goesOn := fun (t : State) (tail : Nat) => ∀ q, s.splice z = some q →
      (q.tail = a.stop → tail = a.stop → (t.splice z).isSome = true)
        ∧ (q.tail ≠ a.stop ∨ tail ≠ a.stop → t.splice z = none)
    ∃ t, exec c s = .next (endEvent t)
      ∧ (t.ctl z).program = list ∧ (t.ctl z).repeatMode = mode ∧ (t.ctl z).setup = (s.ctl z).setup
      ∧ zoneKept z.other s t ∧ sameDisc s t ∧ t.sfm = s.sfm
      ∧ (∀ m o b0 b1, choiceIs z a.track m o edited → s.ttb.bounds m = some (b0, b1) →
          (t.lane z).entries = kept ∧ (t.ctl z).active = some a ∧ armedFor z m b0 b1 a.stop o .none t
            ∧ (t.ctl z).state = (if waits then st else playsFrom st) ∧ goesOn t b0)
      ∧ (noChoice z a.track edited → (s.ctl z).readOverEnd = none →
          (¬ waits → (t.lane z).entries = kept ∧ (t.ctl z).active = some a ∧ (t.ctl z).next = none
            ∧ (t.lane z).tail = some a.stop ∧ (t.lane z).appending = some a.track ∧ (t.lane z).boundary = .absent
            ∧ (t.lane z).pendingSeam = .none ∧ (t.ctl z).state = playsFrom st ∧ goesOn t a.stop)
          ∧ (waits → t.lane z = Lane.empty ∧ (t.ctl z).state = .idle ∧ (t.ctl z).active = none
            ∧ (t.ctl z).next = none ∧ t.conc z = Cne.silent ∧ t.splice z = none))
      ∧ (st = .playing ∨ st = .paused →
          ((∀ g h len k slot, (s.conc z).mode ≠ .interpolating g h len k slot) → t.conc z = s.conc z)
            ∧ ∀ g h len k slot, (s.conc z).mode = .interpolating g h len k slot → t.conc z =
              if slot ∈ ((s.lane z).entries.drop kept.length).map (·.slot) then { s.conc z with mode := .pass }
              else s.conc z)
      ∧ ∀ r, s.rsc.run = some r → r.owner = z → r.purpose ≠ .reread → r.expected ≠ a.stop →
          runOver r (begun s) t ∧ halted r (begun s) t

/-- CMI's own tests (10 R157, R158): an unknown command code, a payload of another length than its code's, and a zone
value above 1 are each refused with BAD-FIELD and the code, and nothing else changes. -/
def Obligations.BadFieldRefusalsOnlyReport : Prop :=
  (∀ (len : Nat) (code : Byte) (s : State), taken (.unknownCommandCode len code) s = true →
    exec (.unknownCommandCode len code) s = .next (endEvent (post (.refused code .badField) (begun s))))
  ∧ (∀ (c : Instr) (len right : Nat) (s : State), c.rightLen = some (len, right) → len ≠ right → taken c s = true →
    exec c s = .next (endEvent (post (.refused (codeOf c) .badField) (begun s))))
  ∧ (∀ (zone : Byte) (s : State), 2 ≤ zone.toNat →
    ∀ c ∈ [Instr.pause 2 zone, .resume 2 zone, .stop 2 zone, .next 2 zone, .previous 2 zone, .programClear 2 zone],
      taken c s = true → exec c s = .next (endEvent (post (.refused (codeOf c) .badField) (begun s))))
  ∧ (∀ (zone x y : Byte) (o : BitVec 24) (t l r k f : BitVec 16) (s : State), 2 ≤ zone.toNat →
    ∀ c ∈ [Instr.play 6 zone x o, .locate 5 zone o, .programAppend 3 zone x, .programRemove 3 zone x,
        .repeatMode 3 zone x, .zoneSetup 14 zone x y t l r k f],
      taken c s = true → exec c s = .next (endEvent (post (.refused (codeOf c) .badField) (begun s))))

/-! ## Scheduling -/

/-- Demand, grants, preemption and handover. The refill flag and the demand class are recomputed as 02 R39 gives them, for
a zone with a splice record as 03 R48 does. RSC, idle while reading is allowed, issues a run for the zone with the lower
class, at equal class for the one whose priority is HIGH, and at equal priority for the one that did not own the previous
run, or zone A where there was none (02 R38, R40); it issues none while reading is not allowed, while a run is
outstanding, or while neither zone has demand. On a change of class a REFILL run whose owner is in class 5 or has none is
cut while the other zone is in class 1, 2 or 3, and no other run is (R42). At a flush the outstanding CUE or REFILL run of
the flushed zone is handed to the other zone where that zone has joined it and can go on with it, and is cut otherwise
(R33). -/
def Obligations.GrantGoesToTheNeedierZone : Prop :=
  (∀ (z : Zone) (s : State),
    let d := (refresh s).rsc.demand.get z
    let f := (refresh s).rsc.refill.get z
    let asks := (s.ctl z).state ≠ .idle ∧ (s.lane z).entries.length < 448
      ∧ ∃ a e, (s.lane z).tail = some a ∧ appendingEnd z s = some e ∧ a < e
    let low := cover z s < (s.ctl z).setup.critical
    onlyScheduling s (refresh s) ∧ (refresh s).dlp = s.dlp ∧ (refresh s).rsc.run = s.rsc.run
      ∧ (f = true ↔ (s.ctl z).state ≠ .idle ∧ (s.ctl z).state ≠ .cueing ∧ cover z s < (s.ctl z).setup.target
          ∧ (cover z s < (s.ctl z).setup.lowWater ∨ s.rsc.refill.get z = true))
      ∧ (¬ asks → d = none)
      ∧ (asks → ∀ q, s.splice z = some q →
          (q.state = .waiting → (∀ p, s.splice z.other = some p → p.state = .waiting) →
            (low → d = some 1) ∧ (¬ low → d = some 4))
          ∧ (q.state ≠ .waiting ∨ (∃ p, s.splice z.other = some p ∧ p.state ≠ .waiting) → d = none))
      ∧ (asks → s.splice z = none →
          ((s.ctl z).state = .cueing → d = some 2)
          ∧ ((s.ctl z).state ≠ .cueing → low ∨ (s.ctl z).state = .starved → d = some 3)
          ∧ ((s.ctl z).state ≠ .cueing → ¬ low → (s.ctl z).state ≠ .starved → d = if f then some 5 else none)))
  ∧ (∀ (z : Zone) (c : Nat) (s : State), s.rsc.run = none → readingAllowed s = true → s.rsc.demand.get z = some c →
    (∀ d, s.rsc.demand.get z.other = some d →
      c < d ∨ (c = d ∧
        (((s.ctl z).setup.priority = .high ∧ (s.ctl z.other).setup.priority = .low)
          ∨ ((s.ctl z).setup.priority = (s.ctl z.other).setup.priority
            ∧ (s.rsc.prevOwner = some z.other ∨ (s.rsc.prevOwner = none ∧ z = .a)))))) →
    ∃ r, (grant s).rsc.run = some r ∧ r.owner = z ∧ r.id = s.rsc.nextId ∧ r.received = 0 ∧ r.expected = r.wanted
      ∧ (grant s).rsc.nextId = (s.rsc.nextId + 1) % 16 ∧ (grant s).rsc.stall = some s.rsc.firstLimit
      ∧ (grant s).dlp.requests = s.dlp.requests ++ [.readRun r.id r.start r.speed (r.settleLeft + r.count)]
      ∧ ∀ y, ((grant s).lane y).runCount = 0)
  ∧ (∀ s : State,
      s.rsc.run ≠ none ∨ readingAllowed s = false ∨ s.rsc.demand = ⟨none, none⟩ → grant s = s)
  ∧ (∀ (r : Run) (s : State), s.rsc.run = some r → sent s →
    let d := (refresh s).rsc.demand
    let outranked := r.purpose = .refill ∧ (d.get r.owner = none ∨ d.get r.owner = some 5)
      ∧ ∃ c, d.get r.owner.other = some c ∧ c ≤ 3
    (d = s.rsc.demand ∨ ¬ outranked → review s = refresh s)
    ∧ (d ≠ s.rsc.demand → outranked →
        onlyScheduling s (review s) ∧ runOver r s (review s) ∧ halted r s (review s)))
  ∧ ∀ (r : Run) (z : Zone) (s : State), s.rsc.run = some r → sent s →
    let joined := (s.lane z.other).tail = some r.expected ∧ 0 < (s.lane z.other).runCount ∧ isOpen z.other s = true
    (r.owner ≠ z ∨ r.purpose = .reread → handOver z s = s)
    ∧ (r.owner = z → r.purpose ≠ .reread → joined →
        handOver z s = { s with rsc := { s.rsc with run := some { r with owner := z.other, purpose := .refill } } })
    ∧ (r.owner = z → r.purpose ≠ .reread → ¬ joined →
        onlyScheduling s (handOver z s) ∧ runOver r s (handOver z s) ∧ halted r s (handOver z s))

/-- The run a grant gives a zone (02 R22, R41; 03 R49): settle and speed from the row of the wanted address, the start
that many sectors below it and never below 0. A REREAD run reads from T − o and counts o + 17 sectors; other runs read
from the lane's tail, a CUE counting resume + 8 − cover and a REFILL target − cover, at least 1, neither above 64. Every
count is lowered where the run would read a sector at or beyond the lead-out, and is never below 1. -/
def Obligations.GrantedRunStaysInBounds : Prop :=
  ∀ (z : Zone) (s : State),
    let r := newRun z s
    let row := rowOfGranule s (r.wanted / 75)
    let counts := fun (n : Nat) =>
      (s.ttb.leadOut = none → r.count = max 1 n)
        ∧ ∀ l, s.ttb.leadOut = some l →
            (r.wanted + n ≤ l → r.count = max 1 n) ∧ (l < r.wanted + n → r.count = max 1 (l - r.wanted))
    r.settleLeft = min row.settle r.wanted ∧ r.speed = row.speed ∧ r.start + r.settleLeft = r.wanted
      ∧ r.owner = z ∧ r.id = s.rsc.nextId ∧ r.expected = r.wanted ∧ r.received = 0 ∧ r.absentStreak = 0
      ∧ r.backStreak = 0 ∧ r.addressRead = false
      ∧ 1 ≤ r.count
      ∧ (∀ l, s.ttb.leadOut = some l → r.wanted < l → r.wanted + r.count ≤ l)
      ∧ (∀ q, s.splice z = some q →
          r.purpose = .reread ∧ r.wanted + min q.overlap q.tail = q.tail ∧ counts (min q.overlap q.tail + 17))
      ∧ (s.splice z = none → r.wanted = (s.lane z).tail.getD 0
          ∧ ((s.ctl z).state = .cueing →
              r.purpose = .cue ∧ counts (min 64 ((s.ctl z).setup.resume + 8 - cover z s)))
          ∧ ((s.ctl z).state ≠ .cueing →
              r.purpose = .refill ∧ counts (min 64 (max 1 ((s.ctl z).setup.target - cover z s)))))

/-! ## The surface map -/

/-- A health event (04 R73, R74, R75, R76) on a map that obeys its law: an existing record's count moves by the change,
stopping at 255, and is removed at 0; its state follows the thresholds by the direction of the change, and it becomes
the most recent. A positive change creates a missing record, and any other leaves the map. No other record changes,
but that a creation in a full map removes the record with the lowest count, the least recent among those. A change of a
record's state posts a SURFACE-STATE report of the granule, the old and the new state, the count after it and its cause, and
the removal of a WORN or DAMAGED record to make room one of its granule, its state, CLEAN, 0 and EVICTED; nothing else posts
any (R77). A sector's
event (R71) is for the granule of its read address: 8 up where its flags are WHOLE, 4 up where runs are flagged, and with
no flagged run 1 up at a quality of 12 to 15 and 1 down below; a sector with no read address makes none. -/
def Obligations.HealthEventsScoreTheMap : Prop :=
  (∀ (f : SectorFrame) (s : State),
    (f.readAddress = none → sectorEvent f s = s)
    ∧ ∀ a, f.readAddress = some a →
      (standardFlags f.flags = .whole → sectorEvent f s = healthEvent (a / 75) 8 .sector s)
      ∧ (∀ r rs, standardFlags f.flags = .runs (r :: rs) → sectorEvent f s = healthEvent (a / 75) 4 .sector s)
      ∧ (standardFlags f.flags = .runs [] → 12 ≤ f.quality → sectorEvent f s = healthEvent (a / 75) 1 .sector s)
      ∧ (standardFlags f.flags = .runs [] → f.quality < 12 → sectorEvent f s = healthEvent (a / 75) (-1) .sector s))
  ∧ ∀ (g : Nat) (change : Int) (cause : SurfaceCause) (s : State), mapLaw s.sfm →
    let m := (healthEvent g change cause s).sfm
    let silent := healthEvent g change cause s = { s with sfm := m }
    let told := fun (x : Report) => healthEvent g change cause s = post x { s with sfm := m }
    let after := fun (st : SurfaceState) (n : Nat) =>
      match st with
      | .clean => if 0 < change then (if n < 32 then SurfaceState.clean else if n < 128 then .worn else .damaged) else .clean
      | .worn => if 0 < change then (if n < 128 then .worn else .damaged) else (if n ≤ 15 then .clean else .worn)
      | .damaged => if 0 < change then .damaged else (if n ≤ 95 then .worn else .damaged)
    (∀ r, s.sfm.find g = some r →
      let n := min 255 ((r.count : Int) + change).toNat
      (n = 0 → m.find g = none ∧ silent)
      ∧ (n ≠ 0 → m.find g = some ⟨g, n, after r.state n⟩ ∧ m.recency.getLast? = some g
        ∧ (after r.state n = r.state → silent)
        ∧ (after r.state n ≠ r.state → told (.surfaceState g r.state (after r.state n) n cause)))
      ∧ ∀ h, h ≠ g → m.find h = s.sfm.find h)
    ∧ (s.sfm.find g = none → change ≤ 0 → m = s.sfm ∧ silent)
    ∧ (s.sfm.find g = none → 0 < change →
      m.find g = some ⟨g, change.toNat, after .clean change.toNat⟩ ∧ m.recency.getLast? = some g
      ∧ (s.sfm.records.length < 64 → silent ∧ ∀ h, h ≠ g → m.find h = s.sfm.find h)
      ∧ (s.sfm.records.length = 64 → ∃ v ∈ s.sfm.records,
          (∀ r ∈ s.sfm.records, v.count ≤ r.count)
          ∧ (∀ r ∈ s.sfm.records, r.count = v.count →
              s.sfm.recency.idxOf v.granule ≤ s.sfm.recency.idxOf r.granule)
          ∧ m.find v.granule = none ∧ (v.state = .clean → silent)
          ∧ (v.state ≠ .clean → told (.surfaceState v.granule v.state .clean 0 .evicted))
          ∧ ∀ h, h ≠ g → h ≠ v.granule → m.find h = s.sfm.find h))

/-! ## Concealment and flags -/

/-- The standard form of a flag list (01 R1): the same pairs are flagged; the runs ascend, neither overlap nor touch, and
end by pair 587; and the list is WHOLE exactly where every pair is flagged. -/
def Obligations.StandardFlagsFlagTheSamePairs : Prop :=
  ∀ fl : FlagList, fl.wf = true →
    (∀ i, i < 588 → flaggedAt (standardFlags fl) i = flaggedAt fl i)
    ∧ match standardFlags fl with
      | .whole => ∀ i, i < 588 → flaggedAt fl i = true
      | .runs rs => rs.length ≤ 8 ∧ (∃ i, i < 588 ∧ flaggedAt fl i = false)
          ∧ rs.Pairwise (fun x y => x.start + x.len < y.start)
          ∧ ∀ r ∈ rs, 1 ≤ r.len ∧ r.start + r.len ≤ 588

/-- How a flagged run is measured (05 R86, R87), interpolated (R88) and concealed. A run that begins in the head entry and
ends there before the entry's last pair is good, with the first unflagged pair as B, where it has at most Lmax pairs, and
too long where more than Lmax pairs are flagged. A run of at most Lmax pairs up to the entry's last pair is long at the
lane's end and at a VERIFIED, UNVERIFIED or GAP seam, and good across a NONE or TRACK seam into an unflagged pair. An
interpolated sample lies between A and B inclusive, and is A plus (B − A) × k ÷ (L + 1) rounded to the nearest whole
number, a half going away from zero. Every lane pair of a PLAYING zone or in a pause fade, an entry's last one too, is held
as the pair before gain and given out at the gain (R85): a long run holds the last pair with CONCEAL in force until its first
unflagged pair, or until a seam at which it is measured again, and where it is found long a CONCEALED report is posted of the
zone, the entry's address, the pair's offset and the reason of R87, and none otherwise (R89), where the line is busy or no run
can be cut while its READ RUN waits for the idle line (there the cut gives the line a waiting frame by a free choice, which may
be a CONCEALED report: R153, LOG 5); a good one is interpolated pair by pair; and SEAM is in force exactly where a later entry
behind a GAP or UNVERIFIED seam begins within F pairs (R96). These values stay CNE's unless the pair ends a stop fade or the
program (R97). -/
def Obligations.FlaggedRunsAreMeasuredAndInterpolated : Prop :=
  (∀ (recOf : Nat → Sector) (lmax len pos : Nat) (e : Entry) (rest : List Entry),
    let flagged := fun i => flaggedAt (recOf e.slot).flags i = true
    (1 ≤ len → len ≤ lmax → pos + len ≤ 587 → (∀ i, i < len → flagged (pos + i)) → ¬ flagged (pos + len) →
      measureRun recOf lmax (e :: rest) pos =
        .good ((recOf e.slot).pairs.getD (pos + len) ⟨0#16, 0#16⟩) e.slot len 0)
    ∧ (pos + lmax ≤ 587 → (∀ i, i ≤ lmax → flagged (pos + i)) →
      measureRun recOf lmax (e :: rest) pos = .long .tooLong)
    ∧ (1 ≤ len → len ≤ lmax → pos + len = 588 → (∀ i, i < len → flagged (pos + i)) →
      measureRun recOf lmax [e] pos = .long .laneEnd
      ∧ ∀ (f : Entry) (more : List Entry), rest = f :: more →
        (f.seam ∈ [Seam.verified, .unverified, .gap] → measureRun recOf lmax (e :: rest) pos = .long .seam)
        ∧ (f.seam ∈ [Seam.none, .track] → f.offset ≤ 587 → flaggedAt (recOf f.slot).flags f.offset = false →
          measureRun recOf lmax (e :: rest) pos =
            .good ((recOf f.slot).pairs.getD f.offset ⟨0#16, 0#16⟩) f.slot len 1)))
  ∧ (∀ (a b : Sample) (k len : Nat), 1 ≤ k → k ≤ len →
    let v := (interpolateSample a b k len).toInt
    let q := v - a.toInt
    let n := (b.toInt - a.toInt) * k
    min a.toInt b.toInt ≤ v ∧ v ≤ max a.toInt b.toInt
      ∧ 2 * (n - q * (len + 1)).natAbs ≤ len + 1
      ∧ (2 * (n - q * (len + 1)).natAbs = len + 1 → n.natAbs < (q * (len + 1)).natAbs))
  ∧ ∀ (z : Zone) (e : Entry) (rest : List Entry) (pos : Nat) (s : State),
    takesPairs z s → (s.lane z).entries = e :: rest → (s.lane z).playPos = some pos → pos ≤ 587 →
    let c := s.conc z
    let source := (s.slot e.slot).record.pairs.getD pos ⟨0#16, 0#16⟩
    let flagged := flaggedAt (s.slot e.slot).record.flags pos = true
    let begins := c.mode = .pass ∨ (c.mode = .holding ∧ pos = e.offset ∧ e.seam ∈ [Seam.verified, .unverified, .gap])
    let run := measureRun (fun n => (s.slot n).record) (rowOfGranule s (e.address / 75)).lmax (e :: rest) pos
    let between := fun (a b : SamplePair) (k len : Nat) =>
      (⟨interpolateSample a.left b.left k len, interpolateSample a.right b.right k len⟩ : SamplePair)
    let r := producePair z s
    let told := fun (u : State) => u.dlp.reports.filter fun x => match x with | .concealed .. => true | _ => false
    let kept := s.dlp.line.isSome = true
      ∨ (sent s ∧ (atBoundaryEntry z s → s.splice z = none ∧ ¬ stopFadeEnds z s))
    ∃ d : Cne, r.1.kind = .lane ∧ r.1.pair = gainPair d.held d.gain
      ∧ (¬ stopFadeEnds z s →
          pos < 587 ∨ rest ≠ [] ∨ (isOpen z s = true ∧ ((s.ctl z).next = none ∨ (s.ctl z).readOverEnd = none))
            ∨ ((s.ctl z).next ≠ none ∧ ¬ atBoundaryEntry z s) →
          r.2.conc z = d)
      ∧ d.target = targetFor d.causes ∧ d.gain = stepGain c.gain d.target (gainStep (s.ctl z).setup.fade)
      ∧ d.causes = { c.causes with conceal := d.causes.conceal, seam := d.causes.seam }
      ∧ (c.mode = .pass → ¬ flagged → d.held = source ∧ d.mode = .pass ∧ d.causes.conceal = c.causes.conceal)
      ∧ (c.mode = .holding → ¬ flagged → d.held = source ∧ d.mode = .pass ∧ d.causes.conceal = false)
      ∧ (begins → flagged → ∀ why, run = .long why → d.held = c.held ∧ d.mode = .holding ∧ d.causes.conceal = true
          ∧ (kept → told r.2 = told s ++ aboveThreshold s [.concealed z e.address pos why]))
      ∧ (kept → ¬ (begins ∧ flagged) ∨ (∀ why, run ≠ .long why) → told r.2 = told s)
      ∧ (begins → flagged → ∀ b slot len on, run = .good b slot len on →
          d.held = between c.held b 1 len ∧ d.causes.conceal = false
            ∧ d.mode = if len ≤ 1 then .pass else .interpolating c.held b len 1 slot)
      ∧ (c.mode = .holding → ¬ begins → flagged →
          d.held = c.held ∧ d.mode = .holding ∧ d.causes.conceal = c.causes.conceal)
      ∧ (∀ a b len k slot, c.mode = .interpolating a b len k slot →
          d.held = between a b (k + 1) len ∧ d.causes.conceal = c.causes.conceal
            ∧ d.mode = if len ≤ k + 1 then .pass else .interpolating a b len (k + 1) slot)
      ∧ (d.causes.seam = true ↔ ∃ i f, rest[i]? = some f ∧ (f.seam = .gap ∨ f.seam = .unverified)
          ∧ 588 - pos + ((rest.take i).map fun x => 588 - x.offset).sum ≤ (s.ctl z).setup.fade)

/-- The output sample (05 R92): the sample before gain times g, divided by 256 and truncated toward zero, in each channel
alike; never greater in magnitude than the sample; the sample itself at g = 256 and 0 at g = 0. A lane or held pair is
given out with the gain its step leaves, and the pair before gain is held. -/
def Obligations.OutputSampleIsScaled : Prop :=
  (∀ (p : SamplePair) (g : Nat), g ≤ 256 →
    (gainPair p g).left.toInt = (p.left.toInt * g).tdiv 256
      ∧ (gainPair p g).right.toInt = (p.right.toInt * g).tdiv 256
      ∧ (gainPair p g).left.toInt.natAbs ≤ p.left.toInt.natAbs
      ∧ (gainPair p g).right.toInt.natAbs ≤ p.right.toInt.natAbs)
  ∧ (∀ p : SamplePair, gainPair p 256 = p ∧ gainPair p 0 = ⟨0#16, 0#16⟩)
  ∧ ∀ (fade : Nat) (before : SamplePair) (c : Cne),
      (finishPair fade before c).1 = gainPair before (finishPair fade before c).2.gain
        ∧ (finishPair fade before c).2.held = before

/-- The gain (05 R91): its target is 0 while any mute cause is present and 256 otherwise; it moves by one step, 256 ÷ F
rounded up, stopping at the target; and a full ramp either way takes at most F pairs. -/
def Obligations.GainMovesByItsStep : Prop :=
  (∀ c : Causes, targetFor c =
    if c.pause = true ∨ c.stop = true ∨ c.starved = true ∨ c.conceal = true ∨ c.seam = true then 0 else 256)
  ∧ ∀ f g : Nat, 1 ≤ f → f ≤ 256 → g ≤ 256 →
      256 ≤ gainStep f * f ∧ (gainStep f - 1) * f < 256
        ∧ stepGain g 256 (gainStep f) = min 256 (g + gainStep f)
        ∧ stepGain g 0 (gainStep f) = g - gainStep f
        ∧ (fun x => stepGain x 256 (gainStep f))^[f] 0 = 256
        ∧ (fun x => stepGain x 0 (gainStep f))^[f] 256 = 0

/-! ## Laws that every step keeps -/

/-- Every step keeps the bounds of the part's lists (01 R4, 03 R50, 06 R110, 10 R155, 11 R163) and both setups in order,
their targets together at most 488 (06 R99, 01 R18); and each zone's gain from 0 to 256 and its target 0 or 256 (05
R83). -/
def Obligations.StepKeepsBoundsSetupsAndGain : Prop :=
  ∀ s t : State, step s = .next t →
    (bounded s → bounded t) ∧ (setupsLaw s → setupsLaw t) ∧ (gainLaw s → gainLaw t)

/-- Every step keeps the surface map's law: at most 64 records, one for a granule, in granule order, each with a count of
1 to 255 that suits its state, and the recency order naming the same granules (04 R69, R76). -/
def Obligations.StepKeepsMapLaw : Prop :=
  ∀ s t : State, mapLaw s.sfm → step s = .next t → mapLaw t.sfm

/-- Every step keeps the laws of the store (01 R2, R3): each slot's holder count is the number of lane entries and staging
positions that refer to it, no lane lists a slot twice, no staged slot is in a lane, and the free list holds exactly
the slots with no holder, once each. With them it keeps the law of lane order (R5): the address of every entry whose seam
is NONE is one more than the address of the entry before it, with the conjuncts on the tail address, the run and the
splices that keep it, but in the two cases of LOG 36. -/
def Obligations.StepKeepsPoolLaw : Prop :=
  ∀ s t : State, poolLaw s → step s = .next t →
    poolLaw t ∧ (laneLaw s → (∀ c, s.pending.head? = some c → seamsTell c s) → laneLaw t)

/-- Every step keeps this law: a run is outstanding only while reading is allowed, the stall timer runs exactly while a run
is outstanding, and the hold timer runs exactly in HELD, OUT and RELOADING (02 R34, R38; 08 R139). -/
def Obligations.StepKeepsReadingLaw : Prop :=
  ∀ s t : State, readingLaw s → step s = .next t → readingLaw t

/-- Every step keeps the law of contexts (06 R100, R101; 09 R151): an IDLE zone has neither context and any other an
ACTIVE one, a disabled zone is IDLE, and the cadence timer runs exactly while the zone is enabled. -/
def Obligations.StepKeepsContextLaw : Prop :=
  ∀ s t : State, contextLaw s → step s = .next t → contextLaw t
end

