-- ==== Sys2Proof/Laws/State.lean ====
section
/-! SUPPORT. One lemma per field per update of the state, and per zone for the values held once per zone, so that no
later proof unfolds a record update. -/

namespace Sys2Proof.Machine

variable (s : State)

/-! ## Values held once per zone -/

@[simp] theorem PerZone.get_set_same {α : Type} (p : PerZone α) (z : Zone) (x : α) : (p.set z x).get z = x := by
  cases z <;> rfl

@[simp] theorem PerZone.get_set_other {α : Type} (p : PerZone α) (z : Zone) (x : α) :
    (p.set z x).get z.other = p.get z.other := by
  cases z <;> rfl

@[simp] theorem PerZone.other_get_set {α : Type} (p : PerZone α) (z : Zone) (x : α) :
    (p.set z.other x).get z = p.get z := by
  cases z <;> rfl

theorem PerZone.get_set {α : Type} (p : PerZone α) (z y : Zone) (x : α) :
    (p.set z x).get y = if y = z then x else p.get y := by
  cases z <;> cases y <;> rfl

@[simp] theorem Zone.other_other (z : Zone) : z.other.other = z := by cases z <;> rfl

theorem Zone.other_ne (z : Zone) : z.other ≠ z := by cases z <;> decide

theorem Zone.eq_or_other (z y : Zone) : y = z ∨ y = z.other := by cases z <;> cases y <;> simp [Zone.other]

/-! ## setLane -/

@[simp] theorem State.setLane_inp (z : Zone) (x : Lane) : (s.setLane z x).inp = s.inp := rfl
@[simp] theorem State.setLane_rsc (z : Zone) (x : Lane) : (s.setLane z x).rsc = s.rsc := rfl
@[simp] theorem State.setLane_spl (z : Zone) (x : Lane) : (s.setLane z x).spl = s.spl := rfl
@[simp] theorem State.setLane_sfm (z : Zone) (x : Lane) : (s.setLane z x).sfm = s.sfm := rfl
@[simp] theorem State.setLane_cne (z : Zone) (x : Lane) : (s.setLane z x).cne = s.cne := rfl
@[simp] theorem State.setLane_zone (z : Zone) (x : Lane) : (s.setLane z x).zone = s.zone := rfl
@[simp] theorem State.setLane_ttb (z : Zone) (x : Lane) : (s.setLane z x).ttb = s.ttb := rfl
@[simp] theorem State.setLane_mmn (z : Zone) (x : Lane) : (s.setLane z x).mmn = s.mmn := rfl
@[simp] theorem State.setLane_cmi (z : Zone) (x : Lane) : (s.setLane z x).cmi = s.cmi := rfl
@[simp] theorem State.setLane_dlp (z : Zone) (x : Lane) : (s.setLane z x).dlp = s.dlp := rfl
@[simp] theorem State.setLane_free (z : Zone) (x : Lane) : (s.setLane z x).free = s.free := rfl
@[simp] theorem State.setLane_evReports (z : Zone) (x : Lane) : (s.setLane z x).evReports = s.evReports := rfl
@[simp] theorem State.setLane_pending (z : Zone) (x : Lane) : (s.setLane z x).pending = s.pending := rfl
@[simp] theorem State.setLane_ctl (z : Zone) (x : Lane) : (s.setLane z x).ctl = s.ctl := rfl
@[simp] theorem State.setLane_conc (z : Zone) (x : Lane) : (s.setLane z x).conc = s.conc := rfl
@[simp] theorem State.setLane_splice (z : Zone) (x : Lane) : (s.setLane z x).splice = s.splice := rfl

/-! ## setCtl -/

@[simp] theorem State.setCtl_inp (z : Zone) (x : ZoneCtl) : (s.setCtl z x).inp = s.inp := rfl
@[simp] theorem State.setCtl_sst (z : Zone) (x : ZoneCtl) : (s.setCtl z x).sst = s.sst := rfl
@[simp] theorem State.setCtl_rsc (z : Zone) (x : ZoneCtl) : (s.setCtl z x).rsc = s.rsc := rfl
@[simp] theorem State.setCtl_spl (z : Zone) (x : ZoneCtl) : (s.setCtl z x).spl = s.spl := rfl
@[simp] theorem State.setCtl_sfm (z : Zone) (x : ZoneCtl) : (s.setCtl z x).sfm = s.sfm := rfl
@[simp] theorem State.setCtl_cne (z : Zone) (x : ZoneCtl) : (s.setCtl z x).cne = s.cne := rfl
@[simp] theorem State.setCtl_ttb (z : Zone) (x : ZoneCtl) : (s.setCtl z x).ttb = s.ttb := rfl
@[simp] theorem State.setCtl_mmn (z : Zone) (x : ZoneCtl) : (s.setCtl z x).mmn = s.mmn := rfl
@[simp] theorem State.setCtl_cmi (z : Zone) (x : ZoneCtl) : (s.setCtl z x).cmi = s.cmi := rfl
@[simp] theorem State.setCtl_dlp (z : Zone) (x : ZoneCtl) : (s.setCtl z x).dlp = s.dlp := rfl
@[simp] theorem State.setCtl_free (z : Zone) (x : ZoneCtl) : (s.setCtl z x).free = s.free := rfl
@[simp] theorem State.setCtl_evReports (z : Zone) (x : ZoneCtl) : (s.setCtl z x).evReports = s.evReports := rfl
@[simp] theorem State.setCtl_pending (z : Zone) (x : ZoneCtl) : (s.setCtl z x).pending = s.pending := rfl
@[simp] theorem State.setCtl_lane (z : Zone) (x : ZoneCtl) : (s.setCtl z x).lane = s.lane := rfl
@[simp] theorem State.setCtl_conc (z : Zone) (x : ZoneCtl) : (s.setCtl z x).conc = s.conc := rfl
@[simp] theorem State.setCtl_splice (z : Zone) (x : ZoneCtl) : (s.setCtl z x).splice = s.splice := rfl
@[simp] theorem State.setCtl_slot (z : Zone) (x : ZoneCtl) : (s.setCtl z x).slot = s.slot := rfl

/-! ## setConc -/

@[simp] theorem State.setConc_inp (z : Zone) (x : Cne) : (s.setConc z x).inp = s.inp := rfl
@[simp] theorem State.setConc_sst (z : Zone) (x : Cne) : (s.setConc z x).sst = s.sst := rfl
@[simp] theorem State.setConc_rsc (z : Zone) (x : Cne) : (s.setConc z x).rsc = s.rsc := rfl
@[simp] theorem State.setConc_spl (z : Zone) (x : Cne) : (s.setConc z x).spl = s.spl := rfl
@[simp] theorem State.setConc_sfm (z : Zone) (x : Cne) : (s.setConc z x).sfm = s.sfm := rfl
@[simp] theorem State.setConc_zone (z : Zone) (x : Cne) : (s.setConc z x).zone = s.zone := rfl
@[simp] theorem State.setConc_ttb (z : Zone) (x : Cne) : (s.setConc z x).ttb = s.ttb := rfl
@[simp] theorem State.setConc_mmn (z : Zone) (x : Cne) : (s.setConc z x).mmn = s.mmn := rfl
@[simp] theorem State.setConc_cmi (z : Zone) (x : Cne) : (s.setConc z x).cmi = s.cmi := rfl
@[simp] theorem State.setConc_dlp (z : Zone) (x : Cne) : (s.setConc z x).dlp = s.dlp := rfl
@[simp] theorem State.setConc_free (z : Zone) (x : Cne) : (s.setConc z x).free = s.free := rfl
@[simp] theorem State.setConc_evReports (z : Zone) (x : Cne) : (s.setConc z x).evReports = s.evReports := rfl
@[simp] theorem State.setConc_pending (z : Zone) (x : Cne) : (s.setConc z x).pending = s.pending := rfl
@[simp] theorem State.setConc_lane (z : Zone) (x : Cne) : (s.setConc z x).lane = s.lane := rfl
@[simp] theorem State.setConc_ctl (z : Zone) (x : Cne) : (s.setConc z x).ctl = s.ctl := rfl
@[simp] theorem State.setConc_splice (z : Zone) (x : Cne) : (s.setConc z x).splice = s.splice := rfl
@[simp] theorem State.setConc_slot (z : Zone) (x : Cne) : (s.setConc z x).slot = s.slot := rfl

/-! ## setSplice -/

@[simp] theorem State.setSplice_inp (z : Zone) (x : Option SpliceRec) : (s.setSplice z x).inp = s.inp := rfl
@[simp] theorem State.setSplice_sst (z : Zone) (x : Option SpliceRec) : (s.setSplice z x).sst = s.sst := rfl
@[simp] theorem State.setSplice_rsc (z : Zone) (x : Option SpliceRec) : (s.setSplice z x).rsc = s.rsc := rfl
@[simp] theorem State.setSplice_sfm (z : Zone) (x : Option SpliceRec) : (s.setSplice z x).sfm = s.sfm := rfl
@[simp] theorem State.setSplice_cne (z : Zone) (x : Option SpliceRec) : (s.setSplice z x).cne = s.cne := rfl
@[simp] theorem State.setSplice_zone (z : Zone) (x : Option SpliceRec) : (s.setSplice z x).zone = s.zone := rfl
@[simp] theorem State.setSplice_ttb (z : Zone) (x : Option SpliceRec) : (s.setSplice z x).ttb = s.ttb := rfl
@[simp] theorem State.setSplice_mmn (z : Zone) (x : Option SpliceRec) : (s.setSplice z x).mmn = s.mmn := rfl
@[simp] theorem State.setSplice_cmi (z : Zone) (x : Option SpliceRec) : (s.setSplice z x).cmi = s.cmi := rfl
@[simp] theorem State.setSplice_dlp (z : Zone) (x : Option SpliceRec) : (s.setSplice z x).dlp = s.dlp := rfl
@[simp] theorem State.setSplice_free (z : Zone) (x : Option SpliceRec) : (s.setSplice z x).free = s.free := rfl
@[simp] theorem State.setSplice_evReports (z : Zone) (x : Option SpliceRec) : (s.setSplice z x).evReports = s.evReports := rfl
@[simp] theorem State.setSplice_pending (z : Zone) (x : Option SpliceRec) : (s.setSplice z x).pending = s.pending := rfl
@[simp] theorem State.setSplice_lane (z : Zone) (x : Option SpliceRec) : (s.setSplice z x).lane = s.lane := rfl
@[simp] theorem State.setSplice_ctl (z : Zone) (x : Option SpliceRec) : (s.setSplice z x).ctl = s.ctl := rfl
@[simp] theorem State.setSplice_conc (z : Zone) (x : Option SpliceRec) : (s.setSplice z x).conc = s.conc := rfl
@[simp] theorem State.setSplice_slot (z : Zone) (x : Option SpliceRec) : (s.setSplice z x).slot = s.slot := rfl

/-! ## setRun -/

@[simp] theorem State.setRun_inp (x : Option Run) : (s.setRun x).inp = s.inp := rfl
@[simp] theorem State.setRun_sst (x : Option Run) : (s.setRun x).sst = s.sst := rfl
@[simp] theorem State.setRun_spl (x : Option Run) : (s.setRun x).spl = s.spl := rfl
@[simp] theorem State.setRun_sfm (x : Option Run) : (s.setRun x).sfm = s.sfm := rfl
@[simp] theorem State.setRun_cne (x : Option Run) : (s.setRun x).cne = s.cne := rfl
@[simp] theorem State.setRun_zone (x : Option Run) : (s.setRun x).zone = s.zone := rfl
@[simp] theorem State.setRun_ttb (x : Option Run) : (s.setRun x).ttb = s.ttb := rfl
@[simp] theorem State.setRun_mmn (x : Option Run) : (s.setRun x).mmn = s.mmn := rfl
@[simp] theorem State.setRun_cmi (x : Option Run) : (s.setRun x).cmi = s.cmi := rfl
@[simp] theorem State.setRun_dlp (x : Option Run) : (s.setRun x).dlp = s.dlp := rfl
@[simp] theorem State.setRun_free (x : Option Run) : (s.setRun x).free = s.free := rfl
@[simp] theorem State.setRun_evReports (x : Option Run) : (s.setRun x).evReports = s.evReports := rfl
@[simp] theorem State.setRun_pending (x : Option Run) : (s.setRun x).pending = s.pending := rfl
@[simp] theorem State.setRun_lane (x : Option Run) : (s.setRun x).lane = s.lane := rfl
@[simp] theorem State.setRun_ctl (x : Option Run) : (s.setRun x).ctl = s.ctl := rfl
@[simp] theorem State.setRun_conc (x : Option Run) : (s.setRun x).conc = s.conc := rfl
@[simp] theorem State.setRun_splice (x : Option Run) : (s.setRun x).splice = s.splice := rfl
@[simp] theorem State.setRun_slot (x : Option Run) : (s.setRun x).slot = s.slot := rfl

/-! ## setSlot -/

@[simp] theorem State.setSlot_inp (n : Nat) (x : Slot) : (s.setSlot n x).inp = s.inp := rfl
@[simp] theorem State.setSlot_rsc (n : Nat) (x : Slot) : (s.setSlot n x).rsc = s.rsc := rfl
@[simp] theorem State.setSlot_spl (n : Nat) (x : Slot) : (s.setSlot n x).spl = s.spl := rfl
@[simp] theorem State.setSlot_sfm (n : Nat) (x : Slot) : (s.setSlot n x).sfm = s.sfm := rfl
@[simp] theorem State.setSlot_cne (n : Nat) (x : Slot) : (s.setSlot n x).cne = s.cne := rfl
@[simp] theorem State.setSlot_zone (n : Nat) (x : Slot) : (s.setSlot n x).zone = s.zone := rfl
@[simp] theorem State.setSlot_ttb (n : Nat) (x : Slot) : (s.setSlot n x).ttb = s.ttb := rfl
@[simp] theorem State.setSlot_mmn (n : Nat) (x : Slot) : (s.setSlot n x).mmn = s.mmn := rfl
@[simp] theorem State.setSlot_cmi (n : Nat) (x : Slot) : (s.setSlot n x).cmi = s.cmi := rfl
@[simp] theorem State.setSlot_dlp (n : Nat) (x : Slot) : (s.setSlot n x).dlp = s.dlp := rfl
@[simp] theorem State.setSlot_free (n : Nat) (x : Slot) : (s.setSlot n x).free = s.free := rfl
@[simp] theorem State.setSlot_evReports (n : Nat) (x : Slot) : (s.setSlot n x).evReports = s.evReports := rfl
@[simp] theorem State.setSlot_pending (n : Nat) (x : Slot) : (s.setSlot n x).pending = s.pending := rfl
@[simp] theorem State.setSlot_ctl (n : Nat) (x : Slot) : (s.setSlot n x).ctl = s.ctl := rfl
@[simp] theorem State.setSlot_conc (n : Nat) (x : Slot) : (s.setSlot n x).conc = s.conc := rfl
@[simp] theorem State.setSlot_splice (n : Nat) (x : Slot) : (s.setSlot n x).splice = s.splice := rfl

/-! ## The parts an update names -/

@[simp] theorem State.setLane_lane_same (z : Zone) (x : Lane) : (s.setLane z x).lane z = x := by cases z <;> rfl
@[simp] theorem State.setLane_lane_other (z : Zone) (x : Lane) : (s.setLane z x).lane z.other = s.lane z.other := by cases z <;> rfl
theorem State.setLane_lane (z y : Zone) (x : Lane) : (s.setLane z x).lane y = if y = z then x else s.lane y := by
  cases z <;> cases y <;> rfl

@[simp] theorem State.setCtl_ctl_same (z : Zone) (x : ZoneCtl) : (s.setCtl z x).ctl z = x := by cases z <;> rfl
@[simp] theorem State.setCtl_ctl_other (z : Zone) (x : ZoneCtl) : (s.setCtl z x).ctl z.other = s.ctl z.other := by cases z <;> rfl
theorem State.setCtl_ctl (z y : Zone) (x : ZoneCtl) : (s.setCtl z x).ctl y = if y = z then x else s.ctl y := by
  cases z <;> cases y <;> rfl

@[simp] theorem State.setConc_conc_same (z : Zone) (x : Cne) : (s.setConc z x).conc z = x := by cases z <;> rfl
@[simp] theorem State.setConc_conc_other (z : Zone) (x : Cne) : (s.setConc z x).conc z.other = s.conc z.other := by cases z <;> rfl
theorem State.setConc_conc (z y : Zone) (x : Cne) : (s.setConc z x).conc y = if y = z then x else s.conc y := by
  cases z <;> cases y <;> rfl

@[simp] theorem State.setSplice_splice_same (z : Zone) (x : Option SpliceRec) : (s.setSplice z x).splice z = x := by cases z <;> rfl
@[simp] theorem State.setSplice_splice_other (z : Zone) (x : Option SpliceRec) : (s.setSplice z x).splice z.other = s.splice z.other := by cases z <;> rfl
theorem State.setSplice_splice (z y : Zone) (x : Option SpliceRec) : (s.setSplice z x).splice y = if y = z then x else s.splice y := by
  cases z <;> cases y <;> rfl

@[simp] theorem State.setLane_slots (z : Zone) (x : Lane) : (s.setLane z x).sst.slots = s.sst.slots := rfl
@[simp] theorem State.setLane_freeList (z : Zone) (x : Lane) : (s.setLane z x).sst.free = s.sst.free := rfl
@[simp] theorem State.setLane_slot (z : Zone) (x : Lane) : (s.setLane z x).slot = s.slot := rfl
@[simp] theorem State.setSlot_lane (n : Nat) (x : Slot) : (s.setSlot n x).lane = s.lane := rfl
@[simp] theorem State.setSlot_freeList (n : Nat) (x : Slot) : (s.setSlot n x).sst.free = s.sst.free := rfl
@[simp] theorem State.setSlot_slots (n : Nat) (x : Slot) : (s.setSlot n x).sst.slots = s.sst.slots.set n x := rfl
@[simp] theorem State.setSplice_staging (z : Zone) (x : Option SpliceRec) :
    (s.setSplice z x).spl.staging = s.spl.staging := rfl
@[simp] theorem State.setSplice_search (z : Zone) (x : Option SpliceRec) :
    (s.setSplice z x).spl.search = s.spl.search := rfl
@[simp] theorem State.setRun_run (x : Option Run) : (s.setRun x).rsc.run = x := rfl

end Sys2Proof.Machine
end

