-- ==== Sys2Proof/Laws/Delivery.lean ====
section
/-! SUPPORT. What the Delivery Port's operations can do: posting touches the report queue alone, and what an event begins
and ends with touches DLP alone. -/

namespace Sys2Proof.Safety

open Sys2Proof.Machine

/-! ## Posting reports -/

theorem onlyReports_refl (s : State) : onlyReports s s := rfl

theorem onlyReports_trans {s t u : State} (h : onlyReports s t) (k : onlyReports t u) : onlyReports s u := by
  unfold onlyReports at *
  rw [k, h]

theorem onlyReports.inp {s t : State} (h : onlyReports s t) : t.inp = s.inp := by
  unfold onlyReports at h; rw [h]

theorem onlyReports.sst {s t : State} (h : onlyReports s t) : t.sst = s.sst := by
  unfold onlyReports at h; rw [h]

theorem onlyReports.rsc {s t : State} (h : onlyReports s t) : t.rsc = s.rsc := by
  unfold onlyReports at h; rw [h]

theorem onlyReports.spl {s t : State} (h : onlyReports s t) : t.spl = s.spl := by
  unfold onlyReports at h; rw [h]

theorem onlyReports.sfm {s t : State} (h : onlyReports s t) : t.sfm = s.sfm := by
  unfold onlyReports at h; rw [h]

theorem onlyReports.cne {s t : State} (h : onlyReports s t) : t.cne = s.cne := by
  unfold onlyReports at h; rw [h]

theorem onlyReports.zone {s t : State} (h : onlyReports s t) : t.zone = s.zone := by
  unfold onlyReports at h; rw [h]

theorem onlyReports.ttb {s t : State} (h : onlyReports s t) : t.ttb = s.ttb := by
  unfold onlyReports at h; rw [h]

theorem onlyReports.mmn {s t : State} (h : onlyReports s t) : t.mmn = s.mmn := by
  unfold onlyReports at h; rw [h]

theorem onlyReports.cmi {s t : State} (h : onlyReports s t) : t.cmi = s.cmi := by
  unfold onlyReports at h; rw [h]

theorem onlyReports.pending {s t : State} (h : onlyReports s t) : t.pending = s.pending := by
  unfold onlyReports at h; rw [h]

theorem onlyReports.lane {s t : State} (h : onlyReports s t) : t.lane = s.lane := by
  unfold onlyReports at h; rw [h]; rfl

theorem onlyReports.ctl {s t : State} (h : onlyReports s t) : t.ctl = s.ctl := by
  unfold onlyReports at h; rw [h]; rfl

theorem onlyReports.conc {s t : State} (h : onlyReports s t) : t.conc = s.conc := by
  unfold onlyReports at h; rw [h]; rfl

theorem onlyReports.splice {s t : State} (h : onlyReports s t) : t.splice = s.splice := by
  unfold onlyReports at h; rw [h]; rfl

theorem onlyReports.slot {s t : State} (h : onlyReports s t) : t.slot = s.slot := by
  unfold onlyReports at h; rw [h]; rfl

theorem onlyReports.levels {s t : State} (h : onlyReports s t) : t.dlp.levels = s.dlp.levels := by
  unfold onlyReports at h; rw [h]

theorem onlyReports.requests {s t : State} (h : onlyReports s t) : t.dlp.requests = s.dlp.requests := by
  unfold onlyReports at h; rw [h]

theorem onlyReports.due {s t : State} (h : onlyReports s t) : t.dlp.due = s.dlp.due := by
  unfold onlyReports at h; rw [h]

theorem onlyReports.cadence {s t : State} (h : onlyReports s t) : t.dlp.cadence = s.dlp.cadence := by
  unfold onlyReports at h; rw [h]

theorem onlyReports.line {s t : State} (h : onlyReports s t) : t.dlp.line = s.dlp.line := by
  unfold onlyReports at h; rw [h]

theorem onlyReports_placeReport (r : Report) (s : State) : onlyReports s (placeReport r s) := rfl

theorem onlyReports_post (r : Report) (s : State) : onlyReports s (post r s) := by
  unfold post
  split
  · exact onlyReports_placeReport r s
  · rfl

theorem onlyReports_inOrder (s : State) : onlyReports s (inOrder s) := rfl

@[simp] theorem post_rsc (r : Report) (s : State) : (post r s).rsc = s.rsc :=
  (onlyReports_post r s).rsc
@[simp] theorem post_sst (r : Report) (s : State) : (post r s).sst = s.sst :=
  (onlyReports_post r s).sst
@[simp] theorem post_spl (r : Report) (s : State) : (post r s).spl = s.spl :=
  (onlyReports_post r s).spl
@[simp] theorem post_sfm (r : Report) (s : State) : (post r s).sfm = s.sfm :=
  (onlyReports_post r s).sfm
@[simp] theorem post_cne (r : Report) (s : State) : (post r s).cne = s.cne :=
  (onlyReports_post r s).cne
@[simp] theorem post_zone (r : Report) (s : State) : (post r s).zone = s.zone :=
  (onlyReports_post r s).zone
@[simp] theorem post_ttb (r : Report) (s : State) : (post r s).ttb = s.ttb :=
  (onlyReports_post r s).ttb
@[simp] theorem post_mmn (r : Report) (s : State) : (post r s).mmn = s.mmn :=
  (onlyReports_post r s).mmn
@[simp] theorem post_cmi (r : Report) (s : State) : (post r s).cmi = s.cmi :=
  (onlyReports_post r s).cmi
@[simp] theorem post_inp (r : Report) (s : State) : (post r s).inp = s.inp :=
  (onlyReports_post r s).inp
@[simp] theorem post_pending (r : Report) (s : State) : (post r s).pending = s.pending :=
  (onlyReports_post r s).pending
@[simp] theorem post_levels (r : Report) (s : State) : (post r s).dlp.levels = s.dlp.levels :=
  (onlyReports_post r s).levels
@[simp] theorem post_requests (r : Report) (s : State) : (post r s).dlp.requests = s.dlp.requests :=
  (onlyReports_post r s).requests
@[simp] theorem post_lane (r : Report) (s : State) : (post r s).lane = s.lane :=
  (onlyReports_post r s).lane
@[simp] theorem post_ctl (r : Report) (s : State) : (post r s).ctl = s.ctl :=
  (onlyReports_post r s).ctl
@[simp] theorem post_conc (r : Report) (s : State) : (post r s).conc = s.conc :=
  (onlyReports_post r s).conc
@[simp] theorem post_splice (r : Report) (s : State) : (post r s).splice = s.splice :=
  (onlyReports_post r s).splice

/-! ## The line, and how an event begins -/

theorem onlyDelivery_refl (s : State) : onlyDelivery s s := rfl

theorem onlyDelivery_trans {s t u : State} (h : onlyDelivery s t) (k : onlyDelivery t u) : onlyDelivery s u := by
  unfold onlyDelivery at *
  rw [k, h]

theorem onlyDelivery.inp {s t : State} (h : onlyDelivery s t) : t.inp = s.inp := by
  unfold onlyDelivery at h; rw [h]

theorem onlyDelivery.sst {s t : State} (h : onlyDelivery s t) : t.sst = s.sst := by
  unfold onlyDelivery at h; rw [h]

theorem onlyDelivery.rsc {s t : State} (h : onlyDelivery s t) : t.rsc = s.rsc := by
  unfold onlyDelivery at h; rw [h]

theorem onlyDelivery.spl {s t : State} (h : onlyDelivery s t) : t.spl = s.spl := by
  unfold onlyDelivery at h; rw [h]

theorem onlyDelivery.sfm {s t : State} (h : onlyDelivery s t) : t.sfm = s.sfm := by
  unfold onlyDelivery at h; rw [h]

theorem onlyDelivery.cne {s t : State} (h : onlyDelivery s t) : t.cne = s.cne := by
  unfold onlyDelivery at h; rw [h]

theorem onlyDelivery.zone {s t : State} (h : onlyDelivery s t) : t.zone = s.zone := by
  unfold onlyDelivery at h; rw [h]

theorem onlyDelivery.ttb {s t : State} (h : onlyDelivery s t) : t.ttb = s.ttb := by
  unfold onlyDelivery at h; rw [h]

theorem onlyDelivery.mmn {s t : State} (h : onlyDelivery s t) : t.mmn = s.mmn := by
  unfold onlyDelivery at h; rw [h]

theorem onlyDelivery.cmi {s t : State} (h : onlyDelivery s t) : t.cmi = s.cmi := by
  unfold onlyDelivery at h; rw [h]

theorem onlyDelivery.pending {s t : State} (h : onlyDelivery s t) : t.pending = s.pending := by
  unfold onlyDelivery at h; rw [h]

theorem onlyDelivery.lane {s t : State} (h : onlyDelivery s t) : t.lane = s.lane := by
  unfold onlyDelivery at h; rw [h]; rfl

theorem onlyDelivery.ctl {s t : State} (h : onlyDelivery s t) : t.ctl = s.ctl := by
  unfold onlyDelivery at h; rw [h]; rfl

theorem onlyDelivery.conc {s t : State} (h : onlyDelivery s t) : t.conc = s.conc := by
  unfold onlyDelivery at h; rw [h]; rfl

theorem onlyDelivery.splice {s t : State} (h : onlyDelivery s t) : t.splice = s.splice := by
  unfold onlyDelivery at h; rw [h]; rfl

theorem onlyDelivery.slot {s t : State} (h : onlyDelivery s t) : t.slot = s.slot := by
  unfold onlyDelivery at h; rw [h]; rfl

theorem onlyDelivery_startFrame (c : LineClass) (s : State) : onlyDelivery s (startFrame c s) := by
  unfold startFrame
  cases c with
  | audio z => dsimp only; split <;> rfl
  | request => dsimp only; split <;> rfl
  | report =>
    dsimp only
    split
    · rfl
    · split <;> rfl

theorem onlyDelivery_arbitrate (s : State) : onlyDelivery s (arbitrate s) := by
  unfold arbitrate
  split
  · rfl
  · exact onlyDelivery_startFrame _ s

theorem onlyDelivery_lineStart (s : State) : onlyDelivery s (lineStart s) := by
  unfold lineStart
  split
  · rfl
  · split
    · rfl
    · exact onlyDelivery_startFrame _ s
    · exact onlyDelivery_trans (t := { s with free := s.free + 1 }) rfl (onlyDelivery_startFrame _ _)

theorem onlyDelivery_beginEvent (s : State) : onlyDelivery s (beginEvent s) :=
  onlyDelivery_trans (t := { s with evReports := 0 }) rfl (onlyDelivery_lineStart _)

@[simp] theorem beginEvent_inp (s : State) : (beginEvent s).inp = s.inp :=
  (onlyDelivery_beginEvent s).inp
@[simp] theorem beginEvent_sst (s : State) : (beginEvent s).sst = s.sst :=
  (onlyDelivery_beginEvent s).sst
@[simp] theorem beginEvent_rsc (s : State) : (beginEvent s).rsc = s.rsc :=
  (onlyDelivery_beginEvent s).rsc
@[simp] theorem beginEvent_spl (s : State) : (beginEvent s).spl = s.spl :=
  (onlyDelivery_beginEvent s).spl
@[simp] theorem beginEvent_sfm (s : State) : (beginEvent s).sfm = s.sfm :=
  (onlyDelivery_beginEvent s).sfm
@[simp] theorem beginEvent_cne (s : State) : (beginEvent s).cne = s.cne :=
  (onlyDelivery_beginEvent s).cne
@[simp] theorem beginEvent_zone (s : State) : (beginEvent s).zone = s.zone :=
  (onlyDelivery_beginEvent s).zone
@[simp] theorem beginEvent_ttb (s : State) : (beginEvent s).ttb = s.ttb :=
  (onlyDelivery_beginEvent s).ttb
@[simp] theorem beginEvent_mmn (s : State) : (beginEvent s).mmn = s.mmn :=
  (onlyDelivery_beginEvent s).mmn
@[simp] theorem beginEvent_cmi (s : State) : (beginEvent s).cmi = s.cmi :=
  (onlyDelivery_beginEvent s).cmi
@[simp] theorem beginEvent_pending (s : State) : (beginEvent s).pending = s.pending :=
  (onlyDelivery_beginEvent s).pending
@[simp] theorem beginEvent_lane (s : State) : (beginEvent s).lane = s.lane :=
  (onlyDelivery_beginEvent s).lane
@[simp] theorem beginEvent_ctl (s : State) : (beginEvent s).ctl = s.ctl :=
  (onlyDelivery_beginEvent s).ctl
@[simp] theorem beginEvent_conc (s : State) : (beginEvent s).conc = s.conc :=
  (onlyDelivery_beginEvent s).conc
@[simp] theorem beginEvent_splice (s : State) : (beginEvent s).splice = s.splice :=
  (onlyDelivery_beginEvent s).splice
@[simp] theorem beginEvent_slot (s : State) : (beginEvent s).slot = s.slot :=
  (onlyDelivery_beginEvent s).slot

/-! ## The end of an event -/

theorem onlyDelivery_dropLost (s : State) : onlyDelivery s (dropLost s) := by
  unfold dropLost
  split <;> rfl

theorem onlyDelivery_endEvent (s : State) : onlyDelivery s (endEvent s) :=
  onlyDelivery_trans (onlyDelivery_lineStart s) (onlyDelivery_dropLost _)

@[simp] theorem endEvent_inp (s : State) : (endEvent s).inp = s.inp :=
  (onlyDelivery_endEvent s).inp
@[simp] theorem endEvent_sst (s : State) : (endEvent s).sst = s.sst :=
  (onlyDelivery_endEvent s).sst
@[simp] theorem endEvent_rsc (s : State) : (endEvent s).rsc = s.rsc :=
  (onlyDelivery_endEvent s).rsc
@[simp] theorem endEvent_spl (s : State) : (endEvent s).spl = s.spl :=
  (onlyDelivery_endEvent s).spl
@[simp] theorem endEvent_sfm (s : State) : (endEvent s).sfm = s.sfm :=
  (onlyDelivery_endEvent s).sfm
@[simp] theorem endEvent_cne (s : State) : (endEvent s).cne = s.cne :=
  (onlyDelivery_endEvent s).cne
@[simp] theorem endEvent_zone (s : State) : (endEvent s).zone = s.zone :=
  (onlyDelivery_endEvent s).zone
@[simp] theorem endEvent_ttb (s : State) : (endEvent s).ttb = s.ttb :=
  (onlyDelivery_endEvent s).ttb
@[simp] theorem endEvent_mmn (s : State) : (endEvent s).mmn = s.mmn :=
  (onlyDelivery_endEvent s).mmn
@[simp] theorem endEvent_cmi (s : State) : (endEvent s).cmi = s.cmi :=
  (onlyDelivery_endEvent s).cmi
@[simp] theorem endEvent_pending (s : State) : (endEvent s).pending = s.pending :=
  (onlyDelivery_endEvent s).pending
@[simp] theorem endEvent_lane (s : State) : (endEvent s).lane = s.lane :=
  (onlyDelivery_endEvent s).lane
@[simp] theorem endEvent_ctl (s : State) : (endEvent s).ctl = s.ctl :=
  (onlyDelivery_endEvent s).ctl
@[simp] theorem endEvent_conc (s : State) : (endEvent s).conc = s.conc :=
  (onlyDelivery_endEvent s).conc
@[simp] theorem endEvent_splice (s : State) : (endEvent s).splice = s.splice :=
  (onlyDelivery_endEvent s).splice
@[simp] theorem endEvent_slot (s : State) : (endEvent s).slot = s.slot :=
  (onlyDelivery_endEvent s).slot

/-- The report queue holds at most 16 after an event (11 R163). -/
theorem endEvent_length (s : State) : (endEvent s).dlp.reports.length ≤ 16 := by
  unfold endEvent dropLost
  split
  · assumption
  · simp only [List.length_take]
    omega

theorem mem_waitingClasses_starts {c : LineClass} {s : State} (h : c ∈ waitingClasses s) :
    (startFrame c s).dlp.line.isSome = true := by
  unfold waitingClasses at h
  simp only [List.mem_append] at h
  rcases h with ((h | h) | h) | h <;> split at h <;> simp only [List.mem_singleton, List.not_mem_nil] at h <;> subst h
  · obtain ⟨f, hf⟩ := Option.isSome_iff_exists.mp (by assumption)
    simp [startFrame, PerZone.get, hf]
  · obtain ⟨f, hf⟩ := Option.isSome_iff_exists.mp (by assumption)
    simp [startFrame, PerZone.get, hf]
  · unfold startFrame
    dsimp only
    split
    · simp_all
    · rfl
  · unfold startFrame
    dsimp only
    split
    · simp_all
    · split <;> rfl

/-- The line that takes up what is ready stays idle only where nothing waits (09 R153). -/
theorem lineStart_idle (s : State) (h : (lineStart s).dlp.line = none) : waitingClasses s = [] := by
  unfold lineStart at h
  split at h
  · rename_i hl
    rw [h] at hl
    cases hl
  · split at h
    · assumption
    · rename_i c hw
      have := mem_waitingClasses_starts (c := c) (s := s) (by rw [hw]; exact List.mem_singleton.mpr rfl)
      rw [h] at this
      cases this
    · rename_i c d cs hw
      exfalso
      have hm : (c :: d :: cs).getD (Config.freeChoice s.free % (cs.length + 2)) c
          ∈ waitingClasses { s with free := s.free + 1 } := by
        show _ ∈ waitingClasses s
        rw [hw, List.getD_eq_getElem _ _ (by simp only [List.length_cons]; exact Nat.mod_lt _ (by omega))]
        exact List.getElem_mem _
      have := mem_waitingClasses_starts hm
      rw [h] at this
      cases this

/-- An idle line has nothing to carry once an event is over (09 R153). -/
theorem endEvent_idle (s : State) (h : (endEvent s).dlp.line = none) : waitingClasses (endEvent s) = [] := by
  have hl : (lineStart s).dlp.line = none := by
    unfold endEvent dropLost at h
    split at h <;> exact h
  have hw := lineStart_idle s hl
  have he : lineStart s = s := by
    unfold lineStart
    split
    · rfl
    · rw [hw]
  have hr : s.dlp.reports = [] := by
    unfold waitingClasses at hw
    simp only [List.append_eq_nil_iff] at hw
    by_contra hn
    simp_all
  unfold endEvent dropLost
  rw [he, hr]
  simpa using hw

/-! ## CMI's gate -/

/-- A command that CMI takes acts on the state in which its frame has left the control queue. -/
theorem cmiCarry_taken {c : Instr} {s : State} (h : taken c s = true) (body : State → State) :
    cmiCarry c body (beginEvent s) = body (begun s) := by
  unfold cmiCarry begun
  rw [beginEvent_cmi]
  unfold taken at h
  split at h <;> rename_i hq
  · have : beginEvent s = { beginEvent s with cmi := s.cmi.drop 1 } := by
      rw [hq, List.drop_nil]
      have := beginEvent_cmi s
      rw [hq] at this
      rw [← this]
    simp only [hq]
    rw [hq] at this
    exact congrArg body this
  · simp only [hq, of_decide_eq_true h, if_true, List.drop_one, List.tail_cons]

/-- A control command of the right length that CMI takes is carried out. -/
theorem carryOut_taken {c : Instr} {len right : Nat} {s : State} (h : taken c s = true) (hl : len = right)
    (body : State → State) : carryOut c len right body s = .next (endEvent (body (begun s))) := by
  unfold carryOut event
  rw [cmiCarry_taken h, lengthTest, if_pos hl]

/-- A control command of the right length with a zone that CMI takes is carried out. -/
theorem carryOutZone_taken {c : Instr} {len right : Nat} {zone : Byte} {z : Zone} {s : State}
    (h : taken c s = true) (hl : len = right) (hz : zoneOf zone = some z) (body : Zone → State → State) :
    carryOutZone c len right zone body s = .next (endEvent (body z (begun s))) := by
  unfold carryOutZone event
  rw [cmiCarry_taken h, lengthTest, if_pos hl, zoneTest, hz]

end Sys2Proof.Safety
end

