-- ==== Sys2Proof/Laws/Scheduler.lean ====
section
/-! SUPPORT. What the scheduler's operations and a health event can do. -/

namespace Sys2Proof.Safety

open Sys2Proof.Machine

/-! ## Health events -/

/-- Reports posted on a state whose surface map alone has been changed. -/
theorem onlyReports_sfm {s u : State} {m : Sfm} (h : onlyReports { s with sfm := m } u) :
    onlyReports { s with sfm := u.sfm } u := by
  rw [show u.sfm = m from h.sfm]
  exact h

theorem changeRecord_only (r : SurfaceRec) (change : Int) (cause : SurfaceCause) (s : State) :
    onlyReports { s with sfm := (changeRecord r change cause s).sfm } (changeRecord r change cause s) := by
  unfold changeRecord
  dsimp only
  split
  · rfl
  · split
    · rfl
    · exact onlyReports_sfm (onlyReports_post _ _)

theorem evictForRoom_only (s : State) : onlyReports { s with sfm := (evictForRoom s).sfm } (evictForRoom s) := by
  unfold evictForRoom
  split
  · rfl
  · split
    · rfl
    · dsimp only
      split
      · rfl
      · exact onlyReports_sfm (onlyReports_post _ _)

theorem createRecord_only (g : Nat) (change : Int) (s : State) :
    onlyReports { s with sfm := (createRecord g change s).sfm } (createRecord g change s) := by
  have h := evictForRoom_only s
  unfold createRecord
  generalize evictForRoom s = t at h ⊢
  unfold onlyReports at h ⊢
  rw [h]

/-- A health event reaches the surface map and posts reports; nothing else changes (04 R73 to R77). -/
theorem healthEvent_only (g : Nat) (change : Int) (cause : SurfaceCause) (s : State) :
    onlyReports { s with sfm := (healthEvent g change cause s).sfm } (healthEvent g change cause s) := by
  unfold healthEvent
  split
  · exact changeRecord_only _ change cause s
  · split
    · exact createRecord_only g change s
    · rfl

theorem healthEvent_rsc (g : Nat) (change : Int) (cause : SurfaceCause) (s : State) :
    (healthEvent g change cause s).rsc = s.rsc := (healthEvent_only g change cause s).rsc

theorem healthEvent_lane (g : Nat) (change : Int) (cause : SurfaceCause) (s : State) :
    (healthEvent g change cause s).lane = s.lane := (healthEvent_only g change cause s).lane

theorem healthEvent_ctl (g : Nat) (change : Int) (cause : SurfaceCause) (s : State) :
    (healthEvent g change cause s).ctl = s.ctl := (healthEvent_only g change cause s).ctl

/-! ## Runs and grants -/

theorem onlyScheduling_refl (s : State) : onlyScheduling s s :=
  ⟨⟨rfl, rfl, fun _ => rfl⟩, ⟨rfl, rfl⟩, ⟨rfl, rfl, rfl⟩, rfl, rfl, rfl, rfl, rfl, rfl, rfl, rfl⟩

theorem onlyScheduling_trans {s t u : State} (h : onlyScheduling s t) (k : onlyScheduling t u) :
    onlyScheduling s u := by
  obtain ⟨⟨a1, a2, a3⟩, ⟨b1, b2⟩, ⟨c1, c2, c3⟩, d, e, f, g, i, j, l, m⟩ := h
  obtain ⟨⟨a1', a2', a3'⟩, ⟨b1', b2'⟩, ⟨c1', c2', c3'⟩, d', e', f', g', i', j', l', m'⟩ := k
  refine ⟨⟨a1'.trans a1, a2'.trans a2, fun z => ?_⟩, ⟨b1'.trans b1, b2'.trans b2⟩,
    ⟨c1'.trans c1, c2'.trans c2, c3'.trans c3⟩, ?_, e'.trans e, f'.trans f, g'.trans g, i'.trans i, j'.trans j,
    l'.trans l, m'.trans m⟩
  · rw [a3' z, a3 z]
  · unfold sameDelivery at *
    rw [d', d]

theorem onlyScheduling_refresh (s : State) : onlyScheduling s (refresh s) := onlyScheduling_refl s

theorem onlyScheduling_issueRun (z : Zone) (s : State) : onlyScheduling s (issueRun z s) := by
  refine ⟨⟨rfl, rfl, fun y => ?_⟩, ⟨rfl, rfl⟩, ⟨rfl, rfl, rfl⟩, rfl, rfl, rfl, rfl, rfl, rfl, rfl, rfl⟩
  cases y <;> rfl

theorem onlyScheduling_grant (s : State) : onlyScheduling s (grant s) := by
  unfold grant
  split
  · split
    · exact onlyScheduling_refl s
    · exact onlyScheduling_trans (onlyScheduling_issueRun _ s) (onlyScheduling_refresh _)
  · exact onlyScheduling_refl s

theorem onlyScheduling_requests (s : State) (r : Rsc) (q : List Request) :
    onlyScheduling s { s with rsc := r, dlp := { s.dlp with requests := q } } :=
  ⟨⟨rfl, rfl, fun _ => rfl⟩, ⟨rfl, rfl⟩, ⟨rfl, rfl, rfl⟩, rfl, rfl, rfl, rfl, rfl, rfl, rfl, rfl⟩

theorem onlyScheduling_haltRun (halt : Bool) (id : Nat) (s : State) : onlyScheduling s (haltRun halt id s) := by
  unfold haltRun
  split
  · exact onlyScheduling_requests s _ _
  · split
    · exact onlyScheduling_requests s _ _
    · exact onlyScheduling_refl s

theorem onlyScheduling_forgetRun (r : Run) (s : State) : onlyScheduling s (forgetRun r s) := onlyScheduling_refl s

/-- While the line is busy, and where the READ RUN has gone, the idle line has nothing to take up. -/
theorem sentByNow_eq (id : Nat) (s : State) (h : s.dlp.line.isSome = true ∨ readRunWaits id s = false) :
    sentByNow id s = s := by
  unfold sentByNow
  split
  · rename_i hw
    rcases h with h | h
    · unfold lineStart
      rw [if_pos h]
    · rw [h] at hw
      cases hw
  · rfl

theorem onlyDelivery_sentByNow (id : Nat) (s : State) : onlyDelivery s (sentByNow id s) := by
  unfold sentByNow
  split
  · exact onlyDelivery_lineStart s
  · rfl

/-- The end of a run that was issued before this event: its READ RUN has been sent, or waits while the line is busy. -/
theorem onlyScheduling_dropRun (halt : Bool) (s : State)
    (h : s.dlp.line.isSome = true ∨ ∀ r, s.rsc.run = some r → readRunWaits r.id s = false) :
    onlyScheduling s (dropRun halt s) := by
  unfold dropRun
  split
  · exact onlyScheduling_refl s
  · rename_i r hr
    rw [sentByNow_eq r.id (forgetRun r s) (h.imp id fun k => k r hr)]
    exact onlyScheduling_trans (onlyScheduling_forgetRun r s) (onlyScheduling_haltRun halt r.id _)

/-- The end of a run adds to its consequences only the scheduler's own work (02 R23). -/
theorem endRun_scheduling (halt : Bool) (f : State → State) (s : State) :
    onlyScheduling (f (dropRun halt s)) (endRun halt f s) :=
  onlyScheduling_trans (onlyScheduling_refresh _) (onlyScheduling_grant _)

theorem onlyScheduling_cutRun (s : State)
    (h : s.dlp.line.isSome = true ∨ ∀ r, s.rsc.run = some r → readRunWaits r.id s = false) :
    onlyScheduling s (cutRun s) :=
  onlyScheduling_trans (onlyScheduling_dropRun true s h) (endRun_scheduling true id s)

/-! ## Whatever the line takes up -/

/-- Scheduler and delivery line at work: the store but for current-run counts, the disc's blocks, the intake side, the
surface map, concealment, the zones, and staging with its search are as they were. -/
structure atWork (s t : State) : Prop where
  store   : sameStore s t
  disc    : sameDisc s t
  intake  : sameIntake s t
  sfm     : t.sfm = s.sfm
  cne     : t.cne = s.cne
  zone    : t.zone = s.zone
  staging : t.spl.staging = s.spl.staging
  search  : t.spl.search = s.spl.search

theorem onlyScheduling.atWork {s t : State} (h : onlyScheduling s t) : atWork s t := by
  obtain ⟨a, b, c, _, d, e, f, g, i, _, _⟩ := h
  exact ⟨a, b, c, d, e, f, g, i⟩

theorem onlyDelivery.atWork {s t : State} (h : onlyDelivery s t) : Safety.atWork s t := by
  refine ⟨⟨?_, ?_, fun z => ?_⟩, ⟨h.ttb, h.mmn⟩, ⟨h.inp, h.cmi, h.pending⟩, h.sfm, h.cne, h.zone, ?_, ?_⟩
  · rw [h.sst]
  · rw [h.sst]
  · rw [h.lane]
  · rw [h.spl]
  · rw [h.spl]

theorem atWork_refl (s : State) : atWork s s := (onlyScheduling_refl s).atWork

theorem atWork_trans {s t u : State} (h : atWork s t) (k : atWork t u) : atWork s u := by
  obtain ⟨a1, a2, a3⟩ := h.store
  obtain ⟨b1, b2, b3⟩ := k.store
  refine ⟨⟨b1.trans a1, b2.trans a2, fun z => by rw [b3 z, a3 z]⟩, ⟨k.disc.1.trans h.disc.1, k.disc.2.trans h.disc.2⟩,
    ⟨k.intake.1.trans h.intake.1, k.intake.2.1.trans h.intake.2.1, k.intake.2.2.trans h.intake.2.2⟩,
    k.sfm.trans h.sfm, k.cne.trans h.cne, k.zone.trans h.zone, k.staging.trans h.staging, k.search.trans h.search⟩

theorem atWork_refresh (s : State) : atWork s (refresh s) := (onlyScheduling_refresh s).atWork

theorem atWork_grant (s : State) : atWork s (grant s) := (onlyScheduling_grant s).atWork

theorem atWork_dropRun (halt : Bool) (s : State) : atWork s (dropRun halt s) := by
  unfold dropRun
  split
  · exact atWork_refl s
  · rename_i r _
    exact atWork_trans (onlyScheduling_forgetRun r s).atWork
      (atWork_trans (onlyDelivery_sentByNow r.id _).atWork (onlyScheduling_haltRun halt r.id _).atWork)

theorem atWork_cutRun (s : State) : atWork s (cutRun s) :=
  atWork_trans (atWork_dropRun true s) (endRun_scheduling true id s).atWork

theorem atWork_review (s : State) : atWork s (review s) := by
  unfold review
  dsimp only
  split
  · exact atWork_refresh s
  · split
    · exact atWork_trans (atWork_refresh s) (atWork_grant _)
    · split
      · exact atWork_trans (atWork_refresh s) (atWork_cutRun _)
      · exact atWork_refresh s

theorem atWork_checkOwnerLane (s : State) : atWork s (checkOwnerLane s) := by
  unfold checkOwnerLane
  split
  · exact atWork_refl s
  · split
    · exact atWork_cutRun s
    · exact atWork_refl s

theorem onlyScheduling_clearMechFault (s : State) : onlyScheduling s (clearMechFault s) := by
  unfold clearMechFault
  split
  · exact onlyScheduling_trans (onlyScheduling_refl s)
      (onlyScheduling_trans (onlyScheduling_refresh _) (onlyScheduling_grant _))
  · exact onlyScheduling_refl s

theorem onlyScheduling_rearm (s : State) : onlyScheduling s (rearm s) := onlyScheduling_refl s

theorem onlyScheduling_clearFailures (s : State) : onlyScheduling s (clearFailures s) := onlyScheduling_refl s

theorem onlyScheduling_setRun (r : Option Run) (s : State) : onlyScheduling s (s.setRun r) := onlyScheduling_refl s

theorem atWork_preemptTest (s : State) : atWork s (preemptTest s) := by
  unfold preemptTest
  split
  · exact atWork_cutRun s
  · exact atWork_refl s

theorem atWork_cutReread (z : Zone) (s : State) : atWork s (cutReread z s) := by
  unfold cutReread
  split
  · exact atWork_cutRun s
  · exact atWork_refl s

theorem onlyScheduling_allowAgain (before : Bool) (s : State) : onlyScheduling s (allowAgain before s) := by
  unfold allowAgain
  split
  · exact onlyScheduling_trans (onlyScheduling_refresh s) (onlyScheduling_grant _)
  · exact onlyScheduling_refl s

/-! ## Results of the scheduler's operations -/

/-- After a run's end, its consequences and the new grant aside, no run is outstanding and the stall timer is stopped. -/
theorem dropRun_idle (halt : Bool) (s : State) (h : s.rsc.run.isSome = true) :
    (dropRun halt s).rsc.run = none ∧ (dropRun halt s).rsc.stall = none := by
  unfold dropRun
  split
  · simp_all
  · rename_i r hr
    have e : ∀ t : State, (haltRun halt r.id t).rsc = t.rsc := by
      intro t
      unfold haltRun
      split
      · rfl
      · split <;> rfl
    rw [e, (onlyDelivery_sentByNow r.id _).rsc]
    exact ⟨rfl, rfl⟩

/-- RSC grants only while reading is allowed (02 R38). -/
theorem grant_allowed (s : State) (h : (grant s).rsc.run.isSome = true) :
    s.rsc.run.isSome = true ∨ readingAllowed s = true := by
  unfold grant at h
  split at h
  · rename_i hc
    simp only [Bool.and_eq_true] at hc
    exact .inr hc.2
  · exact .inl h

end Sys2Proof.Safety
end

