-- ==== Sys2Proof/Laws/Store.lean ====
section
/-! SUPPORT. What the store's operations can do: holder counts and the free list alone, a removal from a lane's tail, a
flush and a trim; and what every operation outside a zone's own lane, controller and concealment leaves as it was. -/

namespace Sys2Proof.Safety

open Sys2Proof.Machine

/-! ## Play is kept -/

/-- Nothing the zones play from has changed: the lanes but for their current-run counts, the zone controllers, the
concealment state, the slots' records, the disc's blocks, the surface map, and the intake side. -/
structure keepsPlay (s t : State) : Prop where
  lane    : ∀ z, laneKept z s t
  zone    : t.zone = s.zone
  cne     : t.cne = s.cne
  records : ∀ n, (t.slot n).record = (s.slot n).record
  ttb     : t.ttb = s.ttb
  mmn     : t.mmn = s.mmn
  sfm     : t.sfm = s.sfm
  inp     : t.inp = s.inp
  cmi     : t.cmi = s.cmi
  pending : t.pending = s.pending

theorem keepsPlay_refl (s : State) : keepsPlay s s :=
  ⟨fun _ => rfl, rfl, rfl, fun _ => rfl, rfl, rfl, rfl, rfl, rfl, rfl⟩

theorem keepsPlay_trans {s t u : State} (h : keepsPlay s t) (k : keepsPlay t u) : keepsPlay s u where
  lane z := by
    have a := h.lane z
    have b := k.lane z
    unfold laneKept at *
    rw [b, a]
  zone := k.zone.trans h.zone
  cne := k.cne.trans h.cne
  records n := (k.records n).trans (h.records n)
  ttb := k.ttb.trans h.ttb
  mmn := k.mmn.trans h.mmn
  sfm := k.sfm.trans h.sfm
  inp := k.inp.trans h.inp
  cmi := k.cmi.trans h.cmi
  pending := k.pending.trans h.pending

theorem atWork.keepsPlay {s t : State} (h : atWork s t) : keepsPlay s t := by
  refine ⟨h.store.2.2, h.zone, h.cne, fun n => ?_, h.disc.1, h.disc.2, h.sfm, h.intake.1, h.intake.2.1, h.intake.2.2⟩
  unfold State.slot
  rw [h.store.1]

theorem onlyScheduling.keepsPlay {s t : State} (h : onlyScheduling s t) : keepsPlay s t := h.atWork.keepsPlay

theorem onlyReports.keepsPlay {s t : State} (h : onlyReports s t) : keepsPlay s t := by
  refine ⟨fun z => ?_, h.zone, h.cne, fun n => ?_, h.ttb, h.mmn, h.sfm, h.inp, h.cmi, h.pending⟩
  · unfold laneKept
    rw [h.lane]
  · unfold State.slot
    rw [h.sst]

theorem keepsPlay_post (r : Report) (s : State) : keepsPlay s (post r s) := (onlyReports_post r s).keepsPlay

theorem keepsPlay.zoneKept {s t : State} (h : Safety.keepsPlay s t) (z : Zone) : zoneKept z s t := by
  refine ⟨?_, ?_, h.lane z⟩
  · unfold State.ctl
    rw [h.zone]
  · unfold State.conc
    rw [h.cne]

/-! ## Holder counts -/

/-- A dropped reference touches holder counts and the free list alone (01 R2). -/
theorem dropHold_only (n : Nat) (s : State) :
    dropHold n s = { s with sst := { (dropHold n s).sst with lanes := s.sst.lanes } } := by
  unfold dropHold releaseSlot
  split <;> rfl

theorem dropHold_lane (n : Nat) (s : State) : (dropHold n s).lane = s.lane := by
  rw [dropHold_only]; rfl

theorem setSlot_record (n m : Nat) (k : Nat) (s : State) :
    ((s.setSlot n { s.slot n with holders := k }).slot m).record = (s.slot m).record := by
  unfold State.setSlot State.slot
  simp only [List.getD_eq_getElem?_getD, List.getElem?_set]
  split
  · rename_i h
    subst h
    split
    · simp
    · rename_i h
      simp only [not_lt] at h
      simp [h]
  · rfl

theorem dropHold_record (n m : Nat) (s : State) : ((dropHold n s).slot m).record = (s.slot m).record := by
  unfold dropHold
  split
  · rfl
  · exact setSlot_record n m 0 s
  · exact setSlot_record n m _ s

theorem keepsPlay_dropHold (n : Nat) (s : State) : keepsPlay s (dropHold n s) := by
  have h := dropHold_only n s
  refine ⟨fun z => ?_, ?_, ?_, fun m => dropHold_record n m s, ?_, ?_, ?_, ?_, ?_, ?_⟩
  · unfold laneKept
    rw [dropHold_lane]
  all_goals rw [h]

theorem keepsPlay_dropHolds (ns : List Nat) (s : State) : keepsPlay s (dropHolds ns s) := by
  induction ns generalizing s with
  | nil => exact keepsPlay_refl s
  | cons n ns ih => exact keepsPlay_trans (keepsPlay_dropHold n s) (ih _)

/-! ## Removing from a lane's tail -/

/-- Entries have gone from the tail of one lane: that lane's own fields, its zone's mode of concealment, holder counts
and the free list may differ, and nothing else (01 R13, 05 R90). -/
structure removal (z : Zone) (s t : State) : Prop where
  rest    : t = { s with sst := t.sst, cne := t.cne }
  other   : t.lane z.other = s.lane z.other
  conc    : t.conc z.other = s.conc z.other
  records : ∀ n, (t.slot n).record = (s.slot n).record

theorem removal_refl (z : Zone) (s : State) : removal z s s := ⟨rfl, rfl, rfl, fun _ => rfl⟩

theorem removal_trans {z : Zone} {s t u : State} (h : removal z s t) (k : removal z t u) : removal z s u :=
  ⟨by rw [k.rest, h.rest], k.other.trans h.other, k.conc.trans h.conc,
    fun n => (k.records n).trans (h.records n)⟩

theorem removal_setLane (z : Zone) (l : Lane) (s : State) : removal z s (s.setLane z l) :=
  ⟨rfl, State.setLane_lane_other s z l, rfl, fun _ => rfl⟩

theorem removal_setConc (z : Zone) (c : Cne) (s : State) : removal z s (s.setConc z c) :=
  ⟨rfl, rfl, State.setConc_conc_other s z c, fun _ => rfl⟩

theorem removal_dropHold (z : Zone) (n : Nat) (s : State) : removal z s (dropHold n s) := by
  refine ⟨?_, ?_, ?_, fun m => dropHold_record n m s⟩
  · rw [dropHold_only]
  · rw [dropHold_lane]
  · rw [dropHold_only]; rfl

theorem removal_dropInterpolation (z : Zone) (n : Nat) (s : State) : removal z s (dropInterpolation z n s) := by
  unfold dropInterpolation
  split
  · split
    · exact removal_setConc z _ s
    · exact removal_refl z s
  · exact removal_refl z s

theorem removal_removeTail (z : Zone) (s : State) : removal z s (removeTail z s) := by
  unfold removeTail
  split
  · exact removal_refl z s
  · exact removal_trans (removal_setLane z _ s)
      (removal_trans (removal_dropHold z _ _) (removal_dropInterpolation z _ _))

theorem removal_removeTails (n : Nat) (z : Zone) (s : State) : removal z s (removeTails n z s) := by
  induction n generalizing s with
  | zero => exact removal_refl z s
  | succ n ih => exact removal_trans (removal_removeTail z s) (ih _)

theorem removal_flushLane (z : Zone) (s : State) : removal z s (flushLane z s) :=
  removal_trans (removal_removeTails _ z s) (removal_setLane z _ _)

theorem removal_trimLane (z : Zone) (track stop : Nat) (s : State) : removal z s (trimLane z track stop s) :=
  removal_trans (removal_removeTails _ z s) (removal_setLane z _ _)

theorem dropInterpolation_lane (z : Zone) (n : Nat) (s : State) : (dropInterpolation z n s).lane = s.lane := by
  unfold dropInterpolation
  split
  · split <;> rfl
  · rfl

/-- A removal takes the last entry (01 R13). -/
theorem removeTail_entries (z : Zone) (s : State) :
    ((removeTail z s).lane z).entries = (s.lane z).entries.dropLast := by
  unfold removeTail
  split
  · rename_i h
    rw [List.getLast?_eq_none_iff.mp h]
    rfl
  · rename_i e h
    rw [dropInterpolation_lane, dropHold_lane, State.setLane_lane_same]
    unfold Lane.dropTail
    simp only [h]

/-- `n` removals take the last `n` entries. -/
theorem removeTails_entries (n : Nat) (z : Zone) (s : State) :
    ((removeTails n z s).lane z).entries = (s.lane z).entries.take ((s.lane z).entries.length - n) := by
  induction n generalizing s with
  | zero => simp [removeTails]
  | succ n ih =>
    rw [removeTails, ih, removeTail_entries, List.dropLast_eq_take, List.take_take, List.length_take]
    congr 1
    omega

/-- A flush leaves the lane empty, with no tail address and no boundary (01 R17). -/
theorem flushLane_lane (z : Zone) (s : State) : (flushLane z s).lane z = Lane.empty := by
  unfold flushLane
  dsimp only
  rw [State.setLane_lane_same, removeTails_entries]
  simp [Lane.empty]

end Sys2Proof.Safety
end

