-- ==== Sys2Proof/Laws/Zones.lean ====
section
/-! SUPPORT. What the splice's end, a flush, a change of zone state and a cue can do. -/

namespace Sys2Proof.Safety

open Sys2Proof.Machine

/-! ## The splice and the run -/

theorem keepsPlay_flushStaging (s : State) : keepsPlay s (flushStaging s) := by
  have h := keepsPlay_dropHolds s.spl.staging s
  exact keepsPlay_trans h ⟨fun _ => rfl, rfl, rfl, fun _ => rfl, rfl, rfl, rfl, rfl, rfl, rfl⟩

theorem keepsPlay_setSplice (z : Zone) (r : Option SpliceRec) (s : State) : keepsPlay s (s.setSplice z r) :=
  ⟨fun _ => rfl, rfl, rfl, fun _ => rfl, rfl, rfl, rfl, rfl, rfl, rfl⟩

theorem keepsPlay_endSplice (z : Zone) (o : SpliceOutcome) (a b : Option Nat) (m : Option Int) (s : State) :
    keepsPlay s (endSplice z o a b m s) := by
  unfold endSplice
  split
  · exact keepsPlay_refl s
  · exact keepsPlay_trans (keepsPlay_setSplice z none s) (keepsPlay_post _ _)

theorem keepsPlay_cutReread (z : Zone) (s : State) : keepsPlay s (cutReread z s) :=
  (atWork_cutReread z s).keepsPlay

theorem keepsPlay_abandonSplice (z : Zone) (s : State) : keepsPlay s (abandonSplice z s) := by
  unfold abandonSplice
  split
  · exact keepsPlay_refl s
  · refine keepsPlay_trans ?_ (keepsPlay_endSplice z _ _ _ _ _)
    split
    · exact keepsPlay_trans (keepsPlay_flushStaging s) (keepsPlay_cutReread z _)
    · exact keepsPlay_refl s

theorem keepsPlay_handOver (z : Zone) (s : State) : keepsPlay s (handOver z s) := by
  unfold handOver
  split
  · exact keepsPlay_refl s
  · split
    · split
      · exact (onlyScheduling_setRun _ s).keepsPlay
      · exact (atWork_cutRun s).keepsPlay
    · exact keepsPlay_refl s

theorem keepsPlay_review (s : State) : keepsPlay s (review s) := (atWork_review s).keepsPlay

theorem keepsPlay_clearMechFault (s : State) : keepsPlay s (clearMechFault s) :=
  (onlyScheduling_clearMechFault s).keepsPlay

/-- The scheduler's work gives a zone without a splice record none, and leaves a current-run count of 0 at 0. -/
def quiet (s t : State) : Prop :=
  ∀ z, (s.splice z = none → t.splice z = none) ∧ ((s.lane z).runCount = 0 → (t.lane z).runCount = 0)

theorem quiet_refl (s : State) : quiet s s := fun _ => ⟨id, id⟩

theorem quiet_trans {s t u : State} (h : quiet s t) (k : quiet t u) : quiet s u :=
  fun z => ⟨fun e => (k z).1 ((h z).1 e), fun e => (k z).2 ((h z).2 e)⟩

theorem quiet_of_eq {s t : State} (h : t.splice = s.splice) (k : t.lane = s.lane) : quiet s t :=
  fun z => ⟨fun e => by rw [h]; exact e, fun e => by rw [k]; exact e⟩

theorem quiet_grant (s : State) : quiet s (grant s) := by
  intro z
  unfold grant
  split
  · split
    · exact ⟨id, id⟩
    · rename_i y hy
      refine ⟨fun h => ?_, fun _ => by cases z <;> rfl⟩
      show ((s.setSplice y ((s.splice y).map rereadIssued)).splice z) = none
      rw [State.setSplice_splice]
      split
      · rename_i e
        rw [← e, h]
        rfl
      · exact h
  · exact ⟨id, id⟩

theorem quiet_dropRun (halt : Bool) (s : State) : quiet s (dropRun halt s) := by
  unfold dropRun
  split
  · exact quiet_refl s
  · rename_i r _
    have h := onlyDelivery_sentByNow r.id (forgetRun r s)
    refine quiet_trans (quiet_of_eq h.splice h.lane) ?_
    unfold haltRun
    split
    · exact quiet_refl _
    · split <;> exact quiet_refl _

theorem quiet_refresh (s : State) : quiet s (refresh s) := fun _ => ⟨id, id⟩

theorem quiet_cutRun (s : State) : quiet s (cutRun s) := by
  have h : quiet s (grant (refresh (dropRun true s))) :=
    quiet_trans (quiet_dropRun true s) (quiet_trans (quiet_refresh _) (quiet_grant _))
  exact h

theorem quiet_review (s : State) : quiet s (review s) := by
  unfold review
  dsimp only
  split
  · exact quiet_refl s
  · split
    · exact quiet_trans (quiet_refresh s) (quiet_grant _)
    · split
      · exact quiet_trans (quiet_refresh s) (quiet_cutRun _)
      · exact quiet_refresh s

theorem quiet_handOver (z : Zone) (s : State) : quiet s (handOver z s) := by
  unfold handOver
  split
  · exact quiet_refl s
  · split
    · split
      · exact quiet_refl s
      · exact quiet_cutRun s
    · exact quiet_refl s

theorem quiet_clearMechFault (s : State) : quiet s (clearMechFault s) := by
  unfold clearMechFault
  split
  · refine quiet_trans (t := { s with rsc := { s.rsc with mechFault := false, failures := 0 } }) (fun _ => ⟨id, id⟩) ?_
    exact quiet_trans (quiet_refresh _) (quiet_grant _)
  · exact quiet_refl s

theorem quiet_checkOwnerLane (s : State) : quiet s (checkOwnerLane s) := by
  unfold checkOwnerLane
  split
  · exact quiet_refl s
  · split
    · exact quiet_cutRun s
    · exact quiet_refl s

theorem quiet_cutReread (z : Zone) (s : State) : quiet s (cutReread z s) := by
  unfold cutReread
  split
  · exact quiet_cutRun s
  · exact quiet_refl s

theorem quiet_post (r : Report) (s : State) : quiet s (post r s) := quiet_of_eq (post_splice r s) (post_lane r s)

theorem dropHolds_splice (ns : List Nat) (s : State) : (dropHolds ns s).splice = s.splice := by
  induction ns generalizing s with
  | nil => rfl
  | cons n ns ih =>
    rw [dropHolds, ih, dropHold_only]
    rfl

theorem dropHolds_lane (ns : List Nat) (s : State) : (dropHolds ns s).lane = s.lane := by
  induction ns generalizing s with
  | nil => rfl
  | cons n ns ih => rw [dropHolds, ih, dropHold_lane]

theorem quiet_flushStaging (s : State) : quiet s (flushStaging s) :=
  quiet_of_eq (dropHolds_splice _ s) (dropHolds_lane _ s)

theorem quiet_endSplice (z : Zone) (o : SpliceOutcome) (a b : Option Nat) (m : Option Int) (s : State) :
    quiet s (endSplice z o a b m s) := by
  unfold endSplice
  split
  · exact quiet_refl s
  · refine quiet_trans (t := s.setSplice z none) (fun y => ⟨fun e => ?_, id⟩) (quiet_post _ _)
    rw [State.setSplice_splice]
    split
    · rfl
    · exact e

theorem quiet_abandonSplice (z : Zone) (s : State) : quiet s (abandonSplice z s) := by
  unfold abandonSplice
  split
  · exact quiet_refl s
  · refine quiet_trans ?_ (quiet_endSplice z _ _ _ _ _)
    split
    · exact quiet_trans (quiet_flushStaging s) (quiet_cutReread z _)
    · exact quiet_refl s

theorem endSplice_splice (z : Zone) (o : SpliceOutcome) (a b : Option Nat) (m : Option Int) (s : State) :
    (endSplice z o a b m s).splice z = none := by
  unfold endSplice
  split
  · assumption
  · simp

/-- An abandoned splice is over (03 R66). -/
theorem abandonSplice_splice (z : Zone) (s : State) : (abandonSplice z s).splice z = none := by
  unfold abandonSplice
  split
  · rename_i h
    exact Option.isNone_iff_eq_none.mp h
  · exact endSplice_splice z _ _ _ _ _

/-! ## Flush, zone state, cue -/

/-- A flush with what it brings about (01 R17, 02 R33, 03 R66): the zone's lane is empty and its splice over; the other
zone, both controllers, the records, the disc's blocks, the surface map and the intake side are as they were. -/
theorem flushWith_spec (z : Zone) (s : State) :
    removal z s (flushLane z s) ∧ keepsPlay (flushLane z s) (flushWith z s) ∧ (flushWith z s).splice z = none
      ∧ (flushWith z s).lane z = Lane.empty := by
  have k : keepsPlay (flushLane z s) (flushWith z s) :=
    keepsPlay_trans (keepsPlay_abandonSplice z _) (keepsPlay_trans (keepsPlay_handOver z _) (keepsPlay_review _))
  have q : quiet (abandonSplice z (flushLane z s)) (flushWith z s) :=
    quiet_trans (quiet_handOver z _) (quiet_review _)
  refine ⟨removal_flushLane z s, k, (q z).1 (abandonSplice_splice z _), ?_⟩
  have h := k.lane z
  unfold laneKept at h
  rw [flushLane_lane] at h
  have r : ((flushWith z s).lane z).runCount = 0 :=
    (quiet_trans (quiet_abandonSplice z _) q z).2 (by rw [flushLane_lane]; rfl)
  rw [r] at h
  exact h

/-- A zone that enters a state (06 R119; 05 R93, R95): its state and the causes that follow it change, a report is posted,
and nothing else. -/
theorem enterState_spec (z : Zone) (new : ZoneState) (cause : ZoneCause) (s : State) :
    onlyReports
      ((s.setCtl z { s.ctl z with state := new }).setConc z
        { s.conc z with causes := { (s.conc z).causes with pause := new == .paused, starved := new == .starved } })
      (enterState z new cause s) :=
  onlyReports_post _ _

/-- A zone that enters IDLE (05 R97, 06 R101). -/
theorem enterIdle_spec (z : Zone) (cause : ZoneCause) (s : State) :
    onlyReports
      ((s.setCtl z { s.ctl z with state := .idle, active := none, next := none, readOverEnd := none }).setConc z
        Cne.silent)
      (enterIdle z cause s) := by
  have h := enterState_spec z .idle cause
    (silence z (s.setCtl z { s.ctl z with active := none, next := none, readOverEnd := none }))
  unfold enterIdle
  unfold onlyReports at h ⊢
  rw [h]
  cases z <;> rfl

/-- A zone that enters IDLE with its lane flushed (06 R100, R105, R114): everything of the other zone stays. -/
theorem idled_of_flush (z : Zone) (cause : ZoneCause) (s : State) :
    idled z s (enterIdle z cause (flushWith z s)) := by
  obtain ⟨r, k, sp, l⟩ := flushWith_spec z s
  have e := enterIdle_spec z cause (flushWith z s)
  have hc : (flushWith z s).ctl = s.ctl := by
    unfold State.ctl
    rw [k.zone, r.rest]
  have ho : zoneKept z.other s (flushWith z s) := by
    obtain ⟨h1, h2, h3⟩ := k.zoneKept z.other
    refine ⟨by rw [hc], ?_, ?_⟩
    · rw [h2]
      exact r.conc
    · unfold laneKept at *
      rw [h3, r.other]
  refine ⟨?_, ?_, ?_, ?_, ⟨?_, ?_, ?_⟩, ⟨?_, ?_⟩, ?_⟩
  · rw [e.lane]
    exact l
  · rw [e.ctl, State.setConc_ctl, State.setCtl_ctl_same, hc]
  · rw [e.conc, State.setConc_conc_same]
  · rw [e.splice]
    exact sp
  · rw [e.ctl, State.setConc_ctl, State.setCtl_ctl_other]
    exact ho.1
  · rw [e.conc, State.setConc_conc_other]
    exact ho.2.1
  · have h3 := ho.2.2
    unfold laneKept at *
    rw [e.lane]
    exact h3
  · rw [e.ttb]
    show (flushWith z s).ttb = _
    rw [k.ttb, r.rest]
  · rw [e.mmn]
    show (flushWith z s).mmn = _
    rw [k.mmn, r.rest]
  · rw [e.sfm]
    show (flushWith z s).sfm = _
    rw [k.sfm, r.rest]

end Sys2Proof.Safety
end

