-- ==== Sys2Proof/Laws/Reports.lean ====
section
/-! SUPPORT. What the scheduler, a flush, a cue and a program's end tell: which reports they post, and that a run whose READ
RUN does not wait at the idle line is cut without a frame being sent. -/

namespace Sys2Proof.Safety

open Sys2Proof.Machine

/-! ## States that tell alike -/

/-- DLP's state but for the request queue, and the model's counters, are as they were: the next report is placed alike. -/
structure tellsAlike (s t : State) : Prop where
  dlp   : t.dlp = { s.dlp with requests := t.dlp.requests }
  free  : t.free = s.free
  count : t.evReports = s.evReports

theorem tellsAlike_refl (s : State) : tellsAlike s s := ⟨rfl, rfl, rfl⟩

theorem tellsAlike_trans {s t u : State} (h : tellsAlike s t) (k : tellsAlike t u) : tellsAlike s u :=
  ⟨by rw [k.dlp, h.dlp], k.free.trans h.free, k.count.trans h.count⟩

theorem tellsAlike.reports {s t : State} (h : tellsAlike s t) : t.dlp.reports = s.dlp.reports := by rw [h.dlp]

theorem tellsAlike.line {s t : State} (h : tellsAlike s t) : t.dlp.line = s.dlp.line := by rw [h.dlp]

theorem tellsAlike.level {s t : State} (h : tellsAlike s t) (r : Report) : levelOf r t = levelOf r s := by
  unfold levelOf
  rw [h.dlp]

theorem tellsAlike.threshold {s t : State} (h : tellsAlike s t) : t.dlp.threshold = s.dlp.threshold := by rw [h.dlp]

theorem onlyScheduling.tellsAlike {s t : State} (h : onlyScheduling s t) : Safety.tellsAlike s t := by
  obtain ⟨_, _, _, d, _, _, _, _, _, f, e⟩ := h
  exact ⟨d, f, e⟩

/-- Where DLP's state and the counters are equal a report is placed alike. -/
theorem tellsAlike.placeReport {s t : State} (h : Safety.tellsAlike s t) (r : Report) :
    Safety.tellsAlike (Machine.placeReport r s) (Machine.placeReport r t) := by
  have e : placesBack r t = placesBack r s := by
    unfold placesBack
    rw [h.reports, h.count]
  refine ⟨?_, ?_, ?_⟩ <;> unfold Machine.placeReport <;> dsimp only
  · rw [e, h.free, h.reports]
    conv_lhs => rw [h.dlp]
  · rw [e, h.free]
  · rw [h.count]

theorem tellsAlike.post {s t : State} (h : Safety.tellsAlike s t) (r : Report) :
    Safety.tellsAlike (Machine.post r s) (Machine.post r t) := by
  unfold Machine.post
  rw [h.level, h.threshold]
  split
  · exact h.placeReport r
  · exact h

/-! ## Classes that are up to date -/

/-- The demand classes are as they would be recomputed now. -/
def fresh (s : State) : Prop := (refresh s).rsc.demand = s.rsc.demand

theorem refillOf_refresh (z : Zone) (s : State) : refillOf z (refresh s) = refillOf z s := by
  have h : (refresh s).rsc.refill.get z = refillOf z s := by cases z <;> rfl
  conv_lhs => unfold refillOf
  dsimp only
  rw [h]
  unfold refillOf
  dsimp only
  split_ifs <;> simp_all [State.ctl, cover, State.lane, refresh]
  omega

theorem demandOf_refresh (z : Zone) (s : State) : demandOf z (refresh s) = demandOf z s := by
  rw [demandOf, refillOf_refresh]
  rfl

theorem fresh_refresh (s : State) : fresh (refresh s) := by
  show (⟨demandOf .a (refresh s), demandOf .b (refresh s)⟩ : PerZone (Option Nat)) = ⟨demandOf .a s, demandOf .b s⟩
  rw [demandOf_refresh, demandOf_refresh]

theorem fresh_grant {s : State} (h : fresh s) : fresh (grant s) := by
  unfold grant
  split
  · split
    · exact h
    · exact fresh_refresh _
  · exact h

theorem fresh_endRun (halt : Bool) (f : State → State) (s : State) : fresh (endRun halt f s) :=
  fresh_grant (fresh_refresh _)

theorem fresh_review (s : State) : fresh (review s) := by
  unfold review
  dsimp only
  split
  · exact fresh_refresh s
  · split
    · exact fresh_grant (fresh_refresh s)
    · split
      · exact fresh_endRun true id _
      · exact fresh_refresh s

/-- RSC has nothing to do where the classes are up to date. -/
theorem review_of_fresh {s : State} (h : fresh s) : review s = refresh s := by
  unfold review
  dsimp only
  exact if_pos h

/-! ## Cuts that send nothing -/

theorem onlyScheduling_cutSent {s : State} (h : sent s) : onlyScheduling s (cutRun s) := by
  by_cases k : s.dlp.line.isSome = true
  · exact onlyScheduling_cutRun s (.inl k)
  · exact onlyScheduling_cutRun s (.inr fun r hr => (h r hr).resolve_left k)

/-- RSC's recomputation, where the outstanding run's READ RUN does not wait at the idle line, is the scheduler's work alone. -/
theorem onlyScheduling_review {s : State} (h : sent s) : onlyScheduling s (review s) := by
  have k : onlyScheduling s (refresh s) := onlyScheduling_refresh s
  unfold review
  dsimp only
  split
  · exact k
  · split
    · exact onlyScheduling_trans k (onlyScheduling_grant _)
    · split
      · exact onlyScheduling_trans k (onlyScheduling_cutSent (s := refresh s) h)
      · exact k

/-- The same where a run granted meanwhile cannot be preempted. -/
theorem onlyScheduling_review_of_not_preempts {s : State} (h : preempts (refresh s) = false) :
    onlyScheduling s (review s) := by
  have k : onlyScheduling s (refresh s) := onlyScheduling_refresh s
  unfold review
  dsimp only
  split
  · exact k
  · split
    · exact onlyScheduling_trans k (onlyScheduling_grant _)
    · rw [if_neg (by rw [h]; exact Bool.false_ne_true)]
      exact k

/-! ## A zone that is not open -/

/-- A zone whose lane is not open has no demand. -/
theorem demandOf_closed {z : Zone} {s : State} (h : isOpen z s = false) : demandOf z s = none := by
  unfold demandOf
  dsimp only
  rw [if_pos (.inr (.inl h))]

theorem refresh_demand (z : Zone) (s : State) : (refresh s).rsc.demand.get z = demandOf z s := by cases z <;> rfl

/-- A run is granted to a zone with demand. -/
theorem granted_demand {s : State} {z : Zone} (h : granted s = some z) : s.rsc.demand.get z ≠ none := by
  unfold granted at h
  split at h <;> rename_i ha hb
  · cases h
  · cases h; simp [PerZone.get, ha]
  · cases h; simp [PerZone.get, hb]
  · cases z <;> simp [PerZone.get, ha, hb]

/-- No run that is granted after a fresh recomputation is a closed zone's. -/
theorem grant_owner {z : Zone} {s : State} (h : isOpen z s = false) (k : s.rsc.run = none) :
    ∀ r, (grant (refresh s)).rsc.run = some r → r.owner ≠ z := by
  intro r hr
  unfold grant at hr
  split at hr
  · split at hr
    · rw [show (refresh s).rsc.run = s.rsc.run from rfl, k] at hr
      cases hr
    · rename_i y hy
      have hd := granted_demand hy
      rw [refresh_demand] at hd
      cases hr
      rintro rfl
      exact hd (demandOf_closed h)
  · rw [show (refresh s).rsc.run = s.rsc.run from rfl, k] at hr
    cases hr

/-- Another zone's run is not preempted for a zone whose lane is not open. -/
theorem not_preempts_closed {z : Zone} {s : State} (h : isOpen z s = false)
    (k : ∀ r, s.rsc.run = some r → r.owner ≠ z) : preempts (refresh s) = false := by
  unfold preempts
  rw [show (refresh s).rsc.run = s.rsc.run from rfl]
  split
  · rfl
  · rename_i r hr
    have e : r.owner.other = z := by
      have := k r hr
      revert this
      cases r.owner <;> cases z <;> simp [Zone.other]
    rw [e, refresh_demand z s, demandOf_closed h]
    simp

/-- What being open depends on is kept (02 R31). -/
theorem isOpen_keepsPlay {s t : State} (h : keepsPlay s t) (z : Zone) : isOpen z t = isOpen z s := by
  have l : (t.lane z).tail = (s.lane z).tail := by
    have := h.lane z
    unfold laneKept at this
    rw [this]
  have c : t.ctl z = s.ctl z := (h.zoneKept z).1
  unfold isOpen appendingEnd
  rw [l, c]

theorem refresh_run (s : State) : (refresh s).rsc.run = s.rsc.run := rfl

/-- A cut of a run of this zone's sends no frame: the outstanding run's READ RUN does not wait at the idle line, or the run is
the other zone's. -/
def sentFor (z : Zone) (s : State) : Prop := sent s ∨ ∀ r, s.rsc.run = some r → r.owner ≠ z

/-- Whatever RSC recomputes or cuts from here on, it sends no frame: the zone's lane is not open either. -/
structure calm (z : Zone) (s : State) : Prop where
  closed : isOpen z s = false
  run    : sentFor z s

theorem calm_cutRun {z : Zone} {s : State} (h : isOpen z s = false) (k : (dropRun true s).rsc.run = none) :
    calm z (cutRun s) := by
  have c : isOpen z (dropRun true s) = false := by
    rw [isOpen_keepsPlay (atWork_dropRun true s).keepsPlay]
    exact h
  refine ⟨?_, .inr (grant_owner (s := dropRun true s) c k)⟩
  rw [isOpen_keepsPlay (atWork_cutRun s).keepsPlay]
  exact h

theorem dropRun_run (halt : Bool) (s : State) : (dropRun halt s).rsc.run = none := by
  cases h : s.rsc.run with
  | none =>
    unfold dropRun
    rw [h]
    exact h
  | some r => exact (dropRun_idle halt s (by rw [h]; rfl)).1

/-- RSC's recomputation leaves a calm zone calm, and is the scheduler's work alone. -/
theorem calm_review {z : Zone} {s : State} (h : calm z s) : onlyScheduling s (review s) ∧ calm z (review s) := by
  have w : onlyScheduling s (review s) :=
    h.run.elim onlyScheduling_review fun k => onlyScheduling_review_of_not_preempts (not_preempts_closed h.closed k)
  refine ⟨w, ?_, ?_⟩
  · rw [isOpen_keepsPlay w.keepsPlay]
    exact h.closed
  · unfold review
    dsimp only
    split
    · exact h.run
    · split
      · rename_i k
        exact .inr (grant_owner h.closed (Option.isNone_iff_eq_none.mp k))
      · split
        · exact (calm_cutRun (s := refresh s) h.closed (dropRun_run _ _)).run
        · exact h.run

theorem calm_handOver {z : Zone} {s : State} (h : calm z s) : onlyScheduling s (handOver z s) ∧ calm z (handOver z s) := by
  unfold handOver
  split
  · exact ⟨onlyScheduling_refl s, h⟩
  · rename_i r hr
    split
    · rename_i c
      have hs : sent s := h.run.resolve_right fun k => k r hr c.1
      split
      · refine ⟨onlyScheduling_setRun _ s, h.closed, .inr fun q hq => ?_⟩
        cases hq
        exact Zone.other_ne z
      · exact ⟨onlyScheduling_cutSent hs, calm_cutRun h.closed (dropRun_run _ _)⟩
    · exact ⟨onlyScheduling_refl s, h⟩

theorem calm_of_eq {z : Zone} {s t : State} (h : calm z s) (o : isOpen z t = isOpen z s) (r : t.rsc.run = s.rsc.run)
    (l : t.dlp.line = s.dlp.line) (w : t.dlp.requests = s.dlp.requests) : calm z t := by
  refine ⟨o.trans h.closed, ?_⟩
  have k := h.run
  unfold sentFor sent readRunWaits at *
  rw [r, l, w]
  exact k

theorem calm_post {z : Zone} {s : State} (h : calm z s) (r : Report) : calm z (post r s) :=
  calm_of_eq h (isOpen_keepsPlay (keepsPlay_post r s) z) (by rw [post_rsc]) (onlyReports_post r s).line
    (onlyReports_post r s).requests

/-! ## What a flush tells -/

/-- Some reports posted one after the other. -/
def posts (rs : List Report) (s : State) : State := rs.foldl (fun t r => post r t) s

theorem tellsAlike.posts {s t : State} (h : tellsAlike s t) (rs : List Report) :
    tellsAlike (Safety.posts rs s) (Safety.posts rs t) := by
  induction rs generalizing s t with
  | nil => exact h
  | cons r rs ih => exact ih (h.post r)

theorem posts_append (rs qs : List Report) (s : State) : posts (rs ++ qs) s = posts qs (posts rs s) :=
  List.foldl_append ..

theorem tellsAlike_flushLane (z : Zone) (s : State) : tellsAlike s (flushLane z s) := by
  have h := (removal_flushLane z s).rest
  exact ⟨by rw [h], by rw [h], by rw [h]⟩

theorem dropHolds_only (ns : List Nat) (s : State) : dropHolds ns s = { s with sst := (dropHolds ns s).sst } := by
  induction ns generalizing s with
  | nil => rfl
  | cons n ns ih =>
    rw [dropHolds, ih, dropHold_only]

theorem flushStaging_only (s : State) :
    flushStaging s = { s with sst := (flushStaging s).sst, spl := { s.spl with staging := [], search := none } } := by
  unfold flushStaging
  dsimp only
  rw [dropHolds_only]

/-- A cut with its grant leaves the splice record of a zone that is not open. -/
theorem cutRun_splice_closed {z : Zone} {s : State} (h : isOpen z s = false) : (cutRun s).splice z = s.splice z := by
  have d : (dropRun true s).splice z = s.splice z := by
    unfold dropRun
    split
    · rfl
    · rename_i r _
      have e := congrFun (onlyDelivery_sentByNow r.id (forgetRun r s)).splice z
      unfold haltRun
      split
      · exact e
      · split <;> exact e
  rw [← d]
  have c : isOpen z (dropRun true s) = false := by
    rw [isOpen_keepsPlay (atWork_dropRun true s).keepsPlay]
    exact h
  show (grant (refresh (dropRun true s))).splice z = _
  unfold grant
  split
  · split
    · rfl
    · rename_i y hy
      have hd := granted_demand hy
      rw [refresh_demand] at hd
      show (State.setSplice _ y _).splice z = _
      rw [State.setSplice_splice, if_neg]
      · rfl
      · rintro rfl
        exact hd (demandOf_closed c)
  · rfl

/-- The end of a splice posts its SPLICE report (03 R62). -/
theorem calm_endSplice {z : Zone} {q : SpliceRec} {s t : State} (h : tellsAlike s t) (c : calm z t)
    (k : t.splice z = some q) :
    tellsAlike (post (.splice ⟨z, q.cause, .abandoned, q.tail, q.cover, q.attemptsMade, none, none, none⟩) s)
      (endSplice z .abandoned none none none t) ∧ calm z (endSplice z .abandoned none none none t) := by
  unfold endSplice
  simp only [k]
  exact ⟨(tellsAlike_trans (u := t.setSplice z none) h ⟨rfl, rfl, rfl⟩).post _,
    calm_post (calm_of_eq (t := t.setSplice z none) c rfl rfl rfl rfl) _⟩

/-- An abandoned splice posts its SPLICE report (03 R62, R66). -/
theorem calm_abandonSplice {z : Zone} {s : State} (h : calm z s) :
    tellsAlike (posts (flushReports z s) s) (abandonSplice z s) ∧ calm z (abandonSplice z s) := by
  unfold abandonSplice flushReports
  cases hq : s.splice z with
  | none => exact ⟨tellsAlike_refl s, h⟩
  | some q =>
    simp only [Option.isNone_some, Bool.false_eq_true, if_false]
    by_cases hs : holdsStaging z s = true
    · rw [if_pos hs]
      have f := flushStaging_only s
      have ff : tellsAlike s (flushStaging s) := ⟨by rw [f], by rw [f], by rw [f]⟩
      have fc : calm z (flushStaging s) :=
        calm_of_eq h (isOpen_keepsPlay (keepsPlay_flushStaging s) z) (by rw [f]) (by rw [f]) (by rw [f])
      have fq : (flushStaging s).splice z = some q := by
        rw [← hq, f]
        rfl
      unfold cutReread
      split
      · rename_i ho
        have fs : sent (flushStaging s) := fc.run.resolve_right fun k => by
          unfold ownsReread at ho
          split at ho
          · rename_i r hr
            simp only [Bool.and_eq_true, beq_iff_eq] at ho
            exact k r hr ho.2
          · cases ho
        have w := onlyScheduling_cutSent fs
        exact calm_endSplice (tellsAlike_trans ff w.tellsAlike) (calm_cutRun fc.closed (dropRun_run _ _))
          ((cutRun_splice_closed fc.closed).trans fq)
      · exact calm_endSplice ff fc fq
    · rw [if_neg hs]
      exact calm_endSplice (tellsAlike_refl s) h hq

/-- A flush posts the SPLICE report of the splice it ends and no other, and sends no frame, where the outstanding run's READ
RUN does not wait at the idle line, or the run is the other zone's (01 R17, 02 R33, 03 R66). -/
theorem calm_flushWith {z : Zone} {s : State} (k : sentFor z s) :
    tellsAlike (posts (flushReports z s) s) (flushWith z s) ∧ calm z (flushWith z s) ∧ fresh (flushWith z s) := by
  have fl := tellsAlike_flushLane z s
  have r := (removal_flushLane z s).rest
  have fs : sentFor z (flushLane z s) := by
    unfold sentFor sent readRunWaits at *
    rw [r]
    exact k
  have fo : isOpen z (flushLane z s) = false := by
    unfold isOpen
    rw [flushLane_lane]
    rfl
  have fr : flushReports z (flushLane z s) = flushReports z s := by
    unfold flushReports State.splice
    rw [r]
  obtain ⟨a, ca⟩ := calm_abandonSplice ⟨fo, fs⟩
  obtain ⟨b, cb⟩ := calm_handOver ca
  obtain ⟨c, cc⟩ := calm_review cb
  rw [fr] at a
  exact ⟨tellsAlike_trans (fl.posts _) (tellsAlike_trans a (tellsAlike_trans b.tellsAlike c.tellsAlike)), cc,
    fresh_review _⟩

/-! ## Where a report comes in the queue -/

/-- The report may pass none of the event's reports so far (11 R163). -/
def blocked (r : Report) (s : State) : Prop :=
  ∀ x ∈ s.dlp.reports.drop (s.dlp.reports.length - s.evReports), mayPass r x = false

theorem blocked_inOrder (r : Report) {s : State} (h : s.evReports = 0) : blocked r s := by
  intro x hx
  rw [h, Nat.sub_zero, List.drop_length] at hx
  cases hx

theorem takeWhile_none {p : Report → Bool} {l : List Report} (h : ∀ x ∈ l, p x = false) : l.takeWhile p = [] := by
  cases l with
  | nil => rfl
  | cons x xs => rw [List.takeWhile_cons, h x List.mem_cons_self]; rfl

theorem aboveThreshold_cons (s : State) (r : Report) (rs : List Report) :
    aboveThreshold s (r :: rs) = (if s.dlp.threshold < levelOf r s then [r] else []) ++ aboveThreshold s rs := by
  unfold aboveThreshold
  rw [List.filter_cons]
  split <;> simp_all

/-- A report that may pass none comes behind all, and blocks those that may not pass it. -/
theorem post_blocked {r : Report} {s : State} (h : blocked r s) :
    (post r s).dlp.reports = s.dlp.reports ++ aboveThreshold s [r]
      ∧ ∀ q, blocked q s → mayPass q r = false → blocked q (post r s) := by
  have e : placesBack r s = 0 := by
    unfold placesBack
    rw [takeWhile_none fun x hx => h x (List.mem_reverse.mp hx)]
    rfl
  rw [aboveThreshold_cons]
  unfold post
  split
  · rename_i hl
    have p : (placeReport r s).dlp.reports = s.dlp.reports ++ [r] := by
      unfold placeReport
      simp only [e, if_true, Nat.sub_zero, List.take_length, List.drop_length]
    refine ⟨p, fun q hq hp x hx => ?_⟩
    rw [p, show (placeReport r s).evReports = s.evReports + 1 from rfl] at hx
    rw [List.length_append, List.length_singleton, Nat.add_sub_add_right, List.drop_append] at hx
    rcases List.mem_append.mp hx with hx | hx
    · exact hq x hx
    · rw [List.mem_singleton.mp (List.mem_of_mem_drop hx)]
      exact hp
  · exact ⟨(List.append_nil _).symm, fun q hq _ => hq⟩

theorem aboveThreshold_post (r : Report) (s : State) (rs : List Report) :
    aboveThreshold (post r s) rs = aboveThreshold s rs := by
  have t : (post r s).dlp.threshold = s.dlp.threshold := by
    have := onlyReports_post r s
    unfold onlyReports at this
    rw [this]
  unfold aboveThreshold levelOf
  rw [t, post_levels]

/-- Reports none of which may pass another or what the event has posted come behind all in their order (11 R162, R163). -/
theorem posts_blocked {rs : List Report} {s : State} (h : ∀ r ∈ rs, blocked r s)
    (k : rs.Pairwise fun x y => mayPass y x = false) :
    (posts rs s).dlp.reports = s.dlp.reports ++ aboveThreshold s rs := by
  induction rs generalizing s with
  | nil => exact (List.append_nil _).symm
  | cons r rs ih =>
    obtain ⟨p, b⟩ := post_blocked (h r List.mem_cons_self)
    have k' := List.pairwise_cons.mp k
    show (posts rs (post r s)).dlp.reports = _
    rw [ih (fun q hq => b q (h q (List.mem_cons_of_mem _ hq)) (k'.1 q hq)) k'.2, p, aboveThreshold_post,
      aboveThreshold_cons s r rs, aboveThreshold_cons s r []]
    simp only [show aboveThreshold s [] = [] from rfl, List.append_nil, List.append_assoc]

/-! ## The end of a program and a cue -/

/-- A zone that enters IDLE (05 R97, 06 R101, R119). -/
theorem enterIdle_eq (z : Zone) (cause : ZoneCause) (s : State) :
    enterIdle z cause s = post (.zoneState z (s.ctl z).state .idle 0 none cause)
      ((s.setConc z Cne.silent).setCtl z
        { s.ctl z with state := .idle, active := none, next := none, readOverEnd := none }) := by
  cases z <;> rfl

/-- A zone that enters a state posts its ZONE-STATE report (06 R119). -/
theorem tellsAlike_enterIdle {z : Zone} {old : ZoneState} {s t : State} (cause : ZoneCause) (h : tellsAlike s t)
    (k : (t.ctl z).state = old) :
    tellsAlike (post (.zoneState z old .idle 0 none cause) s) (enterIdle z cause t) := by
  subst k
  rw [enterIdle_eq]
  exact (tellsAlike_trans (u := (t.setConc z Cne.silent).setCtl z
    { t.ctl z with state := .idle, active := none, next := none, readOverEnd := none }) h ⟨rfl, rfl, rfl⟩).post _

theorem calm_enterIdle {z : Zone} {s : State} (cause : ZoneCause) (h : calm z s) : calm z (enterIdle z cause s) := by
  rw [enterIdle_eq]
  refine calm_post (calm_of_eq (t := (s.setConc z Cne.silent).setCtl z _) h ?_ rfl rfl rfl) _
  rw [h.closed]
  unfold isOpen appendingEnd
  rw [State.setCtl_ctl_same]
  simp

/-- What the end of a program posts (06 R105). -/
theorem calm_endProgram {z : Zone} {s : State} (k : sentFor z s) :
    tellsAlike (posts (programEndReports z (s.ctl z).state s) s) (endProgram z s) ∧ calm z (endProgram z s) := by
  obtain ⟨a, c, -⟩ := calm_flushWith k
  obtain ⟨r, kp, -, -⟩ := flushWith_spec z s
  have hc : (flushWith z s).ctl = s.ctl := by
    unfold State.ctl
    rw [kp.zone, r.rest]
  unfold programEndReports
  rw [posts_append]
  unfold endProgram
  have ha : activeTrack z (flushWith z s) = activeTrack z s := by
    unfold activeTrack
    rw [hc]
  dsimp only
  rw [ha]
  exact ⟨tellsAlike_enterIdle .endOfProgram (a.post _) (by rw [post_ctl, hc]), calm_enterIdle .endOfProgram (calm_post c _)⟩

theorem flushReports_pairwise (z : Zone) (s : State) (rs : List Report) (h : rs.Pairwise fun x y => mayPass y x = false)
    (k : ∀ p, p.zone = z → ∀ r ∈ rs, mayPass r (.splice p) = false) :
    (flushReports z s ++ rs).Pairwise fun x y => mayPass y x = false := by
  unfold flushReports
  split
  · exact List.pairwise_cons.mpr ⟨fun r hr => k _ rfl r hr, h⟩
  · exact h

theorem programEndReports_pairwise (z : Zone) (old : ZoneState) (s : State) :
    (programEndReports z old s).Pairwise fun x y => mayPass y x = false := by
  refine flushReports_pairwise z s _ ?_ ?_
  · cases z <;> simp [mayPass, reportBlock]
  · rintro p rfl r hr
    simp only [List.mem_cons, List.not_mem_nil, or_false] at hr
    obtain rfl | rfl := hr <;> simp [mayPass, reportZone]

theorem cueReports_pairwise (z : Zone) (track a : Nat) (s : State) :
    (cueReports z track a s).Pairwise fun x y => mayPass y x = false := by
  refine flushReports_pairwise z s _ (List.pairwise_singleton _ _) ?_
  rintro p rfl r hr
  rw [List.mem_singleton.mp hr]
  simp [mayPass, reportZone]

/-- The reports of a program's end come behind what has been queued (06 R105). -/
theorem endProgram_reports {z : Zone} {s : State} (k : sentFor z s) (e : s.evReports = 0) :
    (endProgram z s).dlp.reports = s.dlp.reports ++ aboveThreshold s (programEndReports z (s.ctl z).state s) := by
  rw [(calm_endProgram k).1.reports]
  exact posts_blocked (fun r _ => blocked_inOrder r e) (programEndReports_pairwise z _ s)

theorem queuedAs_startFrame {b s : State} (c : LineClass) (h : b.dlp.line = none) :
    queuedAs s.dlp.reports b (startFrame c s) := by
  unfold startFrame
  cases c with
  | audio z => dsimp only; split <;> exact .inl rfl
  | request => dsimp only; split <;> exact .inl rfl
  | report =>
    dsimp only
    split
    · exact .inl rfl
    · rename_i r rest hr
      refine .inr ⟨h, r, ?_⟩
      split <;> exact ⟨hr, rfl⟩

/-- What an idle line takes up leaves the queue from its head (09 R153). -/
theorem queuedAs_lineStart {b s : State} (h : s.dlp.line = b.dlp.line) : queuedAs s.dlp.reports b (lineStart s) := by
  unfold lineStart
  split
  · exact .inl rfl
  · rename_i k
    have hb : b.dlp.line = none := by rw [← h]; simpa using k
    split
    · exact .inl rfl
    · exact queuedAs_startFrame _ hb
    · exact queuedAs_startFrame (s := { s with free := s.free + 1 }) _ hb

theorem queuedAs_tellsAlike {told : List Report} {b t u : State} (h : queuedAs told b t) (k : tellsAlike t u) :
    queuedAs told b u := by
  unfold queuedAs
  rw [k.reports, k.line]
  exact h

theorem queuedAs_cutRun {b s : State} (h : s.dlp.line = b.dlp.line) : queuedAs s.dlp.reports b (cutRun s) := by
  refine queuedAs_tellsAlike (t := dropRun true s) ?_ (endRun_scheduling true id s).tellsAlike
  unfold dropRun
  split
  · exact .inl rfl
  · rename_i r _
    refine queuedAs_tellsAlike (t := sentByNow r.id (forgetRun r s)) ?_ (onlyScheduling_haltRun _ _ _).tellsAlike
    unfold sentByNow
    split
    · exact queuedAs_lineStart (s := forgetRun r s) h
    · exact .inl rfl

/-- RSC's recomputation leaves the queue as it is, but that a cut may give the idle line its first report. -/
theorem queuedAs_review {b s : State} (h : s.dlp.line = b.dlp.line) : queuedAs s.dlp.reports b (review s) := by
  unfold review
  dsimp only
  split
  · exact .inl rfl
  · split
    · exact queuedAs_tellsAlike (t := refresh s) (.inl rfl) (onlyScheduling_grant _).tellsAlike
    · split
      · exact queuedAs_cutRun (s := refresh s) h
      · exact .inl rfl

theorem posts_line (rs : List Report) (s : State) : (posts rs s).dlp.line = s.dlp.line := by
  induction rs generalizing s with
  | nil => rfl
  | cons r rs ih => exact (ih _).trans (onlyReports_post r s).line

/-- What a cue posts (06 R103, R119), the zone's tests finding nothing at the empty lane. -/
theorem queuedAs_cue {z : Zone} {track : Nat} {bounds : Nat × Nat} {a : Nat} {s : State} (k : sent s)
    (e : s.evReports = 0) (h : a < bounds.2) (p : 0 < (s.ctl z).setup.resume) :
    queuedAs (s.dlp.reports ++ aboveThreshold s (cueReports z track a s)) s (cue z track bounds a s) := by
  obtain ⟨f, -, -⟩ := calm_flushWith (z := z) (.inl k)
  obtain ⟨r, kp, -, hl⟩ := flushWith_spec z s
  have hc : (flushWith z s).ctl = s.ctl := by
    unfold State.ctl
    rw [kp.zone, r.rest]
  rw [← posts_blocked (fun r _ => blocked_inOrder r e) (cueReports_pairwise z track a s)]
  unfold cue
  dsimp only
  generalize hw : flushWith z s = w at *
  generalize hv : State.setLane _ z _ = v
  have vl : v.lane z = ⟨[], none, some a, .none, some track, .absent, 0⟩ := by
    rw [← hv, State.setLane_lane_same, State.setCtl_lane, hl]
    rfl
  have vc : v.ctl z = { s.ctl z with active := some ⟨track, bounds.1, bounds.2⟩, next := none, readOverEnd := none } := by
    rw [← hv, State.setLane_ctl, State.setCtl_ctl_same, hc]
  have vt : tellsAlike w v := by rw [← hv]; exact ⟨rfl, rfl, rfl⟩
  generalize hu : (v.setConc z { Cne.silent with causes := { Cne.silent.causes with pause := false, starved := false } }).setCtl z
    { v.ctl z with state := .cueing } = u
  have ul : u.lane z = v.lane z := by rw [← hu]; rfl
  have uc : u.ctl z = { v.ctl z with state := .cueing } := by rw [← hu, State.setCtl_ctl_same]
  have ue : enterState z .cueing .command (silence z v)
      = post (.zoneState z (s.ctl z).state .cueing track (some (a, 0)) .command) u := by
    have h1 : (s.ctl z).state = (v.ctl z).state := by rw [vc]
    have h2 : track = activeTrack z u := by unfold activeTrack; rw [uc, vc]
    have h3 : some (a, 0) = position z u := by unfold position; rw [uc, ul, vl]; rfl
    rw [h1, h3]
    conv_rhs => rw [h2]
    rw [← hu]
    cases z <;> rfl
  have hs : tellsAlike (posts (cueReports z track a s) s) (enterState z .cueing .command (silence z v)) := by
    rw [ue]
    unfold cueReports
    rw [posts_append]
    have : tellsAlike v u := by rw [← hu]; exact ⟨rfl, rfl, rfl⟩
    exact (tellsAlike_trans (tellsAlike_trans f vt) this).post _
  have ht : zoneTests z (enterState z .cueing .command (silence z v)) = enterState z .cueing .command (silence z v) := by
    rw [ue]
    unfold zoneTests holdsRest runOut isOpen appendingEnd cover
    simp only [post_ctl, post_lane, ul, vl, uc, vc, coverOf, pairsAhead]
    simp [h]
    omega
  rw [ht, ← hs.reports]
  exact queuedAs_review (by rw [hs.line, posts_line])

end Sys2Proof.Safety
end

