-- ==== Sys2Proof/Tests/Slice0.lean ====
section
/-! SUPPORT. Small tests: the well-formedness checks, payloads written out from the manual's layouts, the manual's own
worked examples, and for each statement with hypotheses a state and operands that meet them. -/

namespace Sys2Proof.Tests

set_option Elab.async false

open Sys2Proof Sys2Proof.Machine Sys2Proof.Safety

/-! ## Ill-formed commands are refused by WellFormed -/

def quietPairs : List SamplePair := List.replicate 588 SamplePair.zero

def sectorAt (id : Byte) (a : Option Nat) : SectorFrame := ⟨id, a, 0, .runs [], quietPairs⟩

theorem test_wf_sector_good : (Instr.sector (sectorAt 3#8 (some 359999))).wf = true := by decide +kernel
theorem test_wf_address : (Instr.sector (sectorAt 3#8 (some 360000))).wf = false := by decide +kernel
theorem test_wf_quality : (Instr.sector { sectorAt 3#8 none with quality := 16 }).wf = false := by decide +kernel
theorem test_wf_pairs : (Instr.sector { sectorAt 3#8 none with pairs := [] }).wf = false := by decide +kernel
theorem test_wf_run_start : (FlagRun.mk 588 1).wf = false := by decide
theorem test_wf_run_length : (FlagRun.mk 0 0).wf = false := by decide
theorem test_wf_run_long : (FlagRun.mk 0 65536).wf = false := by decide
theorem test_wf_nine_runs : (FlagList.runs (List.replicate 9 ⟨0, 1⟩)).wf = false := by decide
theorem test_wf_known_kind : (Instr.unknownKindFrame 0x02#8).wf = false := by decide
theorem test_wf_known_mark : (Instr.unknownMark 0x08#8).wf = false := by decide
theorem test_wf_empty_control : (Instr.controlFrame []).wf = false := by decide
theorem test_wf_long_control : (Instr.controlFrame (List.replicate 33 0#8)).wf = false := by decide
theorem test_wf_no_payload : (Instr.pause 0 0#8).wf = false := by decide
theorem test_wf_unread_field : (Instr.pause 3 1#8).wf = false := by decide
theorem test_wf_unread_row : (Instr.policyLoad 5 1#8 PolicyFields.zero).wf = false := by decide
theorem test_wf_levels : (Instr.reportSetup 17 [1#8] 0#8).wf = false := by decide
theorem test_wf_unread_levels : (Instr.reportSetup 4 [1#8] 0#8).wf = false := by decide
theorem test_wf_known_code : (Instr.unknownCommandCode 1 0x10#8).wf = false := by decide

/-! ## The links' characters, from 09 R143 to R146 -/

/-- 09 R144's example: the characters 0x31 to 0x39 give 0x29B1. -/
theorem test_check : checkOf [0x31#8, 0x32#8, 0x33#8, 0x34#8, 0x35#8, 0x36#8, 0x37#8, 0x38#8, 0x39#8] = 0x29B1#16 := by
  decide +kernel

/-- 09 R145: TRACK ENTRY is code 0x02, track number, start address in three characters, kind. -/
theorem test_layout_track_entry :
    decodeControl [0x02#8, 0x02#8, 0x00#8, 0x46#8, 0x50#8, 0x01#8] = some (.trackEntry 6 2#8 18000#24 1#8) := by decide

/-- TABLE CLOSE: code 0x03, track count, lead-out. -/
theorem test_layout_table_close :
    decodeControl [0x03#8, 0x03#8, 0x00#8, 0xF6#8, 0x18#8] = some (.tableClose 5 3#8 63000#24) := by decide

/-- ZONE SETUP: code 0x05, zone, enable, priority, then five fields of two characters. -/
theorem test_layout_zone_setup :
    decodeControl [0x05#8, 0x01#8, 0x01#8, 0x00#8, 0x01#8, 0x2C#8, 0x00#8, 0x96#8, 0x00#8, 0x4B#8, 0x00#8, 0x26#8,
        0x00#8, 0x80#8]
      = some (.zoneSetup 14 1#8 1#8 0#8 300#16 150#16 75#16 38#16 128#16) := by decide

/-- POLICY LOAD: code 0x04, state, then the ten fields in the order of 04 R78. -/
theorem test_layout_policy_load :
    decodeControl [0x04#8, 0x01#8, 9#8, 2#8, 0#8, 3#8, 40#8, 4#8, 200#8, 16#8, 3#8, 4#8]
      = some (.policyLoad 12 1#8 ⟨9#8, 2#8, 0#8, 3#8, 40#8, 4#8, 200#8, 16#8, 3#8, 4#8⟩) := by decide

/-- MECHANISM SETUP: code 0x06, two limits of two characters, hold limit. -/
theorem test_layout_mechanism_setup :
    decodeControl [0x06#8, 0x03#8, 0x20#8, 0x00#8, 0xC8#8, 0x0A#8] = some (.mechanismSetup 6 800#16 200#16 10#8) := by
  decide

/-- PLAY: code 0x10, zone, track, offset; LOCATE: code 0x16, zone, signed offset. -/
theorem test_layout_play :
    decodeControl [0x10#8, 0x00#8, 0x05#8, 0x00#8, 0x4E#8, 0x20#8] = some (.play 6 0#8 5#8 20000#24)
    ∧ decodeControl [0x16#8, 0x01#8, 0xFF#8, 0xFD#8, 0x12#8] = some (.locate 5 1#8 (BitVec.ofInt 24 (-750))) := by
  decide

/-- REPEAT: code 0x23, zone, mode; a payload of another length has no field read (10 R157). -/
theorem test_layout_repeat :
    decodeControl [0x23#8, 0x00#8, 0x02#8] = some (.repeatMode 3 0#8 2#8)
    ∧ decodeControl [0x23#8, 0x01#8] = some (.repeatMode 2 0#8 0#8)
    ∧ decodeControl [0x0B#8, 0x01#8] = some (.unknownCommandCode 2 0x0B#8) := by decide

/-- SECTOR: run id, address, quality, flag count, runs of start and length, pairs (09 R145). -/
theorem test_layout_sector :
    readSector [0x05#8, 0x01#8, 0x87#8, 0x68#8, 0x1F#8, 0x01#8, 0x02#8, 0x49#8, 0x00#8, 0x03#8, 0x00#8, 0x01#8, 0xFF#8, 0xFE#8]
      = ⟨5#8, some 100200, 15, .runs [⟨585, 3⟩], [⟨1#16, 0xFFFE#16⟩]⟩ := by decide +kernel

/-- 0xFFFFFF is no address, and a flag count of 0xFF is WHOLE (09 R145). -/
theorem test_layout_sector_absent :
    readSector [0x05#8, 0xFF#8, 0xFF#8, 0xFF#8, 0x02#8, 0xFF#8, 0x00#8, 0x01#8, 0xFF#8, 0xFE#8]
      = ⟨5#8, none, 2, .whole, [⟨1#16, 0xFFFE#16⟩]⟩ := by decide +kernel

/-- A READ RUN request's payload: code 0x01, run id, start, speed, sector count (09 R146). -/
theorem test_layout_read_run :
    (requestWire (.readRun 6 100199 .x4 61)).take 11
      = [0xC3#8, 0x12#8, 0x00#8, 0x07#8, 0x01#8, 0x06#8, 0x01#8, 0x87#8, 0x67#8, 0x04#8, 0x3D#8] := by
  decide +kernel

/-! ## The manual's worked examples -/

/-- 07 "Worked load": the fingerprint of its three tracks and lead-out. -/
theorem test_fingerprint : fingerprintOf [⟨1, 0, .audio⟩, ⟨2, 18000, .audio⟩, ⟨3, 40500, .audio⟩] 63000 = 6457503 := by
  decide

/-- 07 R127's example: track 3's and the last track's bounds, and the AUDIO tracks above 3 and below 1. -/
theorem test_table :
    let t : Ttb := ⟨.closed, [⟨1, 0, .audio⟩, ⟨2, 15000, .audio⟩, ⟨3, 30000, .audio⟩, ⟨4, 52500, .data⟩], some 120000,
      some 12330004⟩
    t.bounds 3 = some (30000, 52500) ∧ t.bounds 4 = some (52500, 120000) ∧ t.lowestAbove 3 = none
      ∧ t.highestBelow 1 = none := by decide

/-- 06 R99's example. -/
theorem test_setup : setupOf true .high 240 260 0 90 128 300 = ⟨true, .high, 188, 187, 2, 1, 128⟩ := by decide

/-- 04 R79's example. -/
theorem test_policy :
    policyOf ⟨9#8, 2#8, 0#8, 3#8, 40#8, 4#8, 200#8, 16#8, 3#8, 4#8⟩ = ⟨7, 2, 1, .x4, 32, 4, 200, 16, 3, 4⟩ := by decide

/-- 01 R7's example: 1,014 pairs ahead, cover 1. -/
theorem test_cover :
    let l : Lane := { Lane.empty with
      entries := [⟨0, 1, 1, 0, .none⟩, ⟨1, 2, 1, 0, .none⟩, ⟨2, 3, 1, 250, .verified⟩], playPos := some 500 }
    pairsAhead l = 1014 ∧ coverOf l = 1 := by decide

/-- 05 "a run across two entries": the values before gain, left and right, for k = 1 and 7 of 7. -/
theorem test_interpolation :
    (interpolatePair ⟨700#16, BitVec.ofInt 16 (-64)⟩ ⟨BitVec.ofInt 16 (-100), 64#16⟩ 1 7 = ⟨600#16, BitVec.ofInt 16 (-48)⟩)
    ∧ interpolatePair ⟨700#16, BitVec.ofInt 16 (-64)⟩ ⟨BitVec.ofInt 16 (-100), 64#16⟩ 7 7 = ⟨0#16, 48#16⟩ := by
  decide +kernel

/-- 05 "The same lane with a longer run": gains of 254 and 238, truncated toward zero. -/
theorem test_gain :
    gainPair ⟨700#16, BitVec.ofInt 16 (-64)⟩ 254 = ⟨694#16, BitVec.ofInt 16 (-63)⟩
    ∧ gainPair ⟨700#16, BitVec.ofInt 16 (-64)⟩ 238 = ⟨650#16, BitVec.ofInt 16 (-59)⟩ := by decide +kernel

/-- 05 "a pause and a resume": F = 100 gives a step of 3, which stops at 0 at the 86th pair. -/
theorem test_gain_step :
    gainStep 100 = 3 ∧ (fun g => stepGain g 0 3)^[85] 256 = 1 ∧ (fun g => stepGain g 0 3)^[86] 256 = 0 := by
  decide +kernel

/-- 03 R55's example: tolerances of 2 and 8. -/
theorem test_tolerance :
    pairScores 2 ⟨⟨1000#16, BitVec.ofInt 16 (-40)⟩, false⟩ ⟨⟨1002#16, BitVec.ofInt 16 (-43)⟩, false⟩ = false
    ∧ pairScores 8 ⟨⟨1000#16, BitVec.ofInt 16 (-40)⟩, false⟩ ⟨⟨1002#16, BitVec.ofInt 16 (-43)⟩, false⟩ = true := by
  decide +kernel

/-- 03 R56's example: at equal scores 1,143 is nearer to p_exp = 1,144 than 1,147. -/
theorem test_best : beats 1144 1147 32 (1143, 32) = false ∧ beats 1144 1143 32 (1147, 32) = true
    ∧ expectedPosition 2 32 = 1144 := by decide

/-- 03 R54's table: the expected positions for each o and W; and its formula at o = 0 (LOG 40). -/
theorem test_expected :
    expectedPosition 1 16 = 572 ∧ expectedPosition 2 32 = 1144 ∧ expectedPosition 3 32 = 1732
    ∧ expectedPosition 4 64 = 2288 ∧ expectedPosition 8 64 = 4640 ∧ expectedPosition 0 16 = -16 := by decide

/-- 01 R1's standard form: runs sorted, overlapping and touching runs merged, a run past pair 587 cut. -/
theorem test_standard_flags :
    standardFlags (.runs [⟨580, 20⟩, ⟨10, 5⟩, ⟨15, 2⟩, ⟨12, 1⟩]) = .runs [⟨10, 7⟩, ⟨580, 8⟩]
    ∧ standardFlags (.runs [⟨300, 288⟩, ⟨0, 300⟩]) = .whole := by decide +kernel

/-! ## Small states -/

/-- A three-track disc in play, the intake hunting, and the line busy. -/
def base : State :=
  { State.reset with
    inp := .hunting
    ttb := ⟨.closed, [⟨1, 0, .audio⟩, ⟨2, 18000, .audio⟩, ⟨3, 40500, .data⟩], some 63000, some 6457503⟩
    mmn := { Mmn.initial with disc := .present }
    dlp := { Dlp.initial with line := some [], reports := [] } }

def ctlA (st : ZoneState) : ZoneCtl :=
  { ZoneCtl.initial Setup.defaultA with state := st, active := some ⟨1, 0, 18000⟩ }

/-- Two entries, at addresses 10 and 11, in slots 0 and 1. -/
def laneA : Lane := ⟨[⟨0, 10, 1, 0, .none⟩, ⟨1, 11, 1, 0, .none⟩], some 0, some 12, .none, some 1, .absent, 1⟩

/-- Zone A in a state, with two sectors in its lane, at full gain; three slots are free. -/
def zoneIn (st : ZoneState) : State :=
  { base with
    sst := { base.sst with free := [2, 3, 4], lanes := ⟨laneA, Lane.empty⟩ }
    zone := ⟨ctlA st, ZoneCtl.initial Setup.defaultB⟩
    cne := ⟨⟨SamplePair.zero, .pass, 256, 256, Causes.none⟩, Cne.silent⟩ }

/-- Zone A playing with a lane. -/
def playingLane (l : Lane) : State := (zoneIn .playing).setLane .a l

def runA : Run := ⟨5, 12, 11, 10, .x4, .a, .refill, 0, 0, 12, 0, 0, true⟩

/-- Zone A playing while its REFILL run is outstanding. -/
def reading (r : Run) : State :=
  { zoneIn .playing with rsc := { Rsc.initial with run := some r, stall := some 200 } }

def recA (st : SpliceState) : SpliceRec := ⟨.shock, 12, 2, 3, 2, 1, st⟩

/-- Zone A's splice while its REREAD run is outstanding. -/
def rereading : State := (reading { runA with purpose := .reread }).setSplice .a (some (recA .reading))

/-- Zone A playing track 1, NEXT armed as track 2; and playing track 2, after which no AUDIO track comes. -/
def armed : State := (zoneIn .playing).setCtl .a { ctlA .playing with next := some ⟨2, 18000, 40500, true, .order⟩ }

def lastTrack : State := (zoneIn .playing).setCtl .a { ctlA .playing with active := some ⟨2, 18000, 40500⟩ }

/-- The choice of NEXT by table order under repeat OFF, and from the program list. -/
theorem choiceIs_order {z : Zone} {ref m : Nat} {s : State}
    (h : s.ttb.state = .closed ∧ s.ttb.playable m = true ∧ (s.ctl z).repeatMode = .off ∧ (s.ctl z).program = []
      ∧ s.ttb.lowestAbove ref = some m) : choiceIs z ref m .order s := by
  obtain ⟨h1, h2, h3, h4, h5⟩ := h
  simp [choiceIs, h1, h2, h3, h4, h5]

theorem choiceIs_program {z : Zone} {ref m : Nat} {s : State}
    (h : s.ttb.state = .closed ∧ s.ttb.playable m = true ∧ (s.ctl z).repeatMode = .off
      ∧ (s.ctl z).program.head? = some m) : choiceIs z ref m .program s := by
  obtain ⟨h1, h2, h3, h4⟩ := h
  obtain ⟨rest, h4⟩ := List.head?_eq_some_iff.mp h4
  simp [choiceIs, h1, h2, h3, h4]

theorem choiceIs_track {z : Zone} {ref : Nat} {s : State}
    (h : s.ttb.state = .closed ∧ s.ttb.playable ref = true ∧ (s.ctl z).repeatMode = .track) :
    choiceIs z ref ref .repeatTrack s := by
  obtain ⟨h1, h2, h3⟩ := h
  simp [choiceIs, h1, h2, h3]

theorem choiceIs_list {z : Zone} {ref m : Nat} {s : State}
    (h : s.ttb.state = .closed ∧ s.ttb.playable m = true ∧ (s.ctl z).repeatMode = .list ∧ (s.ctl z).program = []
      ∧ s.ttb.lowestAbove ref = none ∧ s.ttb.lowest = some m) : choiceIs z ref m .order s := by
  obtain ⟨h1, h2, h3, h4, h5, h6⟩ := h
  simp [choiceIs, h1, h2, h3, h4, h5, h6]

/-- A search in flight. -/
def searching (tail : Nat) (w : List MarkedPair) (staged : List Nat) : State :=
  { zoneIn .playing with
    spl := ⟨⟨some { recA .searching with tail := tail }, none⟩, staged, some ⟨.a, w, 0, 0, none⟩⟩ }

/-- What a command leaves. -/
def after (c : Instr) (s : State) : State :=
  match exec c s with
  | .next t => t
  | _ => s

/-! ## One step -/

/-- 02 R22's example: the run issued for tail 100,200, cover 180 and target 240, with its READ RUN. -/
theorem test_new_run :
    let s := { base with
      rsc := { Rsc.initial with nextId := 6 }
      sst := { base.sst with lanes := ⟨{ Lane.empty with
        entries := List.replicate 180 ⟨0, 0, 1, 0, .none⟩, playPos := some 0, tail := some 100200 }, Lane.empty⟩ }
      zone := ⟨{ ctlA .playing with active := some ⟨1, 0, 200000⟩ }, ZoneCtl.initial Setup.defaultB⟩
      ttb := { base.ttb with leadOut := some 300000 } }
    newRun .a s = ⟨6, 100200, 100199, 60, .x4, .a, .refill, 1, 0, 100200, 0, 0, false⟩
      ∧ (issueRun .a s).dlp.requests = [.readRun 6 100199 .x4 61] := by decide +kernel

/-- 06 R112's example: an offset beyond the track cues at its last sector. -/
theorem test_play :
    let s := { base with ttb := { base.ttb with entries := [⟨4, 31200, .audio⟩, ⟨5, 40500, .audio⟩, ⟨6, 52125, .audio⟩] } }
    ((after (.play 6 0#8 5#8 20000#24) s).lane .a).tail = some 52124
      ∧ ((after (.play 6 0#8 5#8 20000#24) s).ctl .a).state = .cueing := by decide +kernel

/-- Zone A playing track 5, from 40,500 to 52,125, of 06 R112's example, at an address. -/
def playing5 (a o : Nat) : State :=
  { zoneIn .playing with
    ttb := { base.ttb with entries := [⟨4, 31200, .audio⟩, ⟨5, 40500, .audio⟩, ⟨6, 52125, .audio⟩] }
    zone := ⟨{ ctlA .playing with active := some ⟨5, 40500, 52125⟩ }, ZoneCtl.initial Setup.defaultB⟩
    sst := { base.sst with
      lanes := ⟨⟨[⟨0, a, 5, 0, .none⟩], some o, some (a + 1), .none, some 5, .absent, 0⟩, Lane.empty⟩ } }

/-- 06 R115's example: −750 is stopped at the track's start, +20,000 at its last sector. -/
theorem test_locate :
    ((after (.locate 5 0#8 (BitVec.ofInt 24 (-750))) (playing5 41000 300)).lane .a).tail = some 40500
      ∧ ((after (.locate 5 0#8 20000#24) (playing5 41000 300)).lane .a).tail = some 52124 := by decide +kernel

/-- 06 R117's example: 151 sectors in restarts track 5; 150 sectors in cues track 4. -/
theorem test_previous :
    ((after (.previous 2 0#8) (playing5 40651 0)).lane .a).tail = some 40500
      ∧ ((after (.previous 2 0#8) (playing5 40650 0)).lane .a).tail = some 31200 := by decide +kernel

/-- 10 "a burst of commands": a REPEAT of mode 3 is refused with BAD-FIELD and code 0x23. -/
theorem test_repeat_refused :
    (after (.repeatMode 3 0#8 3#8) base).dlp.reports = [.refused 0x23#8 .badField] := by decide +kernel

/-- 10 R155, as in "a burst of commands": the fifth frame is discarded and CONTROL-OVERFLOW set. -/
theorem test_control_overflow :
    let s := { base with cmi := [[0x23#8], [0x20#8], [0x10#8], [0x0A#8]] }
    (after (.controlFrame [0x11#8, 0#8]) s).cmi = s.cmi ∧ (after (.controlFrame [0x11#8, 0#8]) s).dlp.controlOverflow = true := by
  decide +kernel

/-- 04 "one granule's history": sectors of +4, +8 and +1 and a forward skip leave 21; a failed search makes it WORN. -/
theorem test_granule :
    let s := healthEvent 1120 8 .forwardSkip (healthEvent 1120 1 .sector (healthEvent 1120 8 .sector
      (healthEvent 1120 4 .sector base)))
    s.sfm.records = [⟨1120, 21, .clean⟩] ∧ (healthEvent 1120 16 .spliceFail s).sfm.records = [⟨1120, 37, .worn⟩]
      ∧ (healthEvent 1120 16 .spliceFail s).dlp.reports = [.surfaceState 1120 .clean .worn 37 .spliceFail] := by
  decide +kernel

/-- 01 R2's example: slots are taken from the head of the free list and released at its tail. -/
theorem test_free_list : (dropHold 1 ((zoneIn .playing).setSlot 1 ⟨Sector.blank, 1⟩)).sst.free = [2, 3, 4, 1] := by
  decide +kernel

/-- 09 R148's example: a bad stop bit in a SECTOR frame sets FRAMING-ERROR and reports kind 0x01. -/
theorem test_bad_stop :
    let t := after .badStopBit { base with inp := .assembling [0x01#8, 0x09#8] }
    t.inp = .hunting ∧ t.dlp.framingError = true ∧ t.dlp.reports = [.linkError .framingError 0x01#8] := by decide +kernel

/-- 08 R133: a TRAY-HOLD in PRESENT makes the disc HELD and arms the hold timer with its limit. -/
theorem test_tray_hold :
    (after .trayHold base).mmn.disc = .held ∧ (after .trayHold base).mmn.holdTimer = some 10 := by decide +kernel

/-- 02 R26, 01 R10: the sector at E goes into the slot at the head of the free list, and zone A's tail moves on. -/
theorem test_sector_stored :
    ((after (.sector (sectorAt 5#8 (some 12))) (reading runA)).lane .a).tail = some 13
      ∧ (after (.sector (sectorAt 5#8 (some 12))) (reading runA)).sst.free = [3, 4] := by decide +kernel

/-- 02 R36: the third run failure in succession sets MECH-FAULT. -/
theorem test_mech_fault :
    let s := { reading runA with rsc := { (reading runA).rsc with failures := 2 } }
    (after .stallTimerExpiry s).rsc.mechFault = true ∧ (after .stallTimerExpiry s).rsc.run = none := by decide +kernel

/-! ## Witnesses: states and operands that meet each statement's hypotheses -/

/-- `base` with its delivery side changed. -/
def delivering (d : Dlp) : State := { base with dlp := d }

theorem witness_StepTakesFront :
    ({ base with pending := [.shock, .discIn] } : State).pending = .shock :: [.discIn] ∧ base.pending = [] := by decide

/-- A busy line, an idle one with nothing waiting, and one with a report waiting; and a command that leaves the line
idle. -/
theorem witness_IdleLineStartsAWaitingFrame :
    base.dlp.line.isSome = true ∧ base.dlp.reports.length ≤ 16 ∧ waitingClasses base = []
      ∧ State.reset.dlp.line = none ∧ waitingClasses State.reset ≠ []
      ∧ ∃ t, exec .lineFallsFree base = .next t ∧ t.dlp.line = none := by
  refine ⟨by decide, by decide, by decide +kernel, by decide, by decide +kernel, _, rfl, by decide +kernel⟩

def frameA : AudioFrame := ⟨.a, true, 0, 0, 0, []⟩

def statusNone : StatusReply :=
  ⟨.idle, 0, 0, .idle, 0, 0, .empty, true, false, 0, true, false, false, false, false, false, false, false⟩

/-- A line that falls free, with nothing, and then one kind of frame after another, waiting. -/
theorem witness_LineFallsFreeServesInOrder :
    base.dlp.line = some [] ∧ base.dlp.due = ⟨none, none⟩ ∧ base.dlp.requests = [] ∧ base.dlp.reports = []
    ∧ (delivering { base.dlp with due := ⟨some frameA, none⟩ }).dlp.due.a = some frameA
    ∧ (delivering { base.dlp with due := ⟨none, some { frameA with zone := .b }⟩ }).dlp.due = ⟨none, some { frameA with zone := .b }⟩
    ∧ (delivering { base.dlp with requests := [.readHalt 3] }).dlp.requests = .readHalt 3 :: []
    ∧ (delivering { base.dlp with reports := [.reset .soft] }).dlp.reports = .reset .soft :: []
    ∧ (delivering { base.dlp with reports := [.status statusNone] }).dlp.reports = .status statusNone :: [] := by
  decide +kernel

/-- Levels above and at the threshold; a queue one short of full, and a full one, with the line busy; reports that
may pass one of another block, and reports that may not. -/
theorem witness_ReportQueueKeepsOrder :
    base.dlp.threshold < levelOf (.reset .soft) base
    ∧ levelOf (.reset .soft) (delivering { base.dlp with threshold := 7 }) ≤ 7
    ∧ (delivering { base.dlp with reports := List.replicate 15 (.reset .soft) }).dlp.reports.length < 16
    ∧ (delivering { base.dlp with reports := List.replicate 16 (.reset .soft) }).dlp.reports.length = 16
    ∧ base.dlp.line.isSome = true ∧ base.evReports = 0
    ∧ mayPass (.surfaceState 0 .clean .worn 32 .spliceFail) (.mechFault .a .stall 0) = true
    ∧ mayPass (.zoneState .a .cueing .playing 1 none .cover) (.splice ⟨.a, .shock, .gap, 12, 2, 1, none, none, none⟩) = true
    ∧ mayPass (.zoneState .a .cueing .playing 1 none .cover) (.surfaceState 0 .clean .worn 32 .sector) = false
    ∧ mayPass (.endOfProgram .a 1) (.surfaceState 0 .clean .worn 32 .forwardSkip) = false
    ∧ mayPass (.trackChange .a 1 2 18000 false) (.splice ⟨.a, .shock, .abandoned, 12, 2, 1, none, none, none⟩) = false
    ∧ mayPass (.splice ⟨.a, .shock, .gap, 12, 2, 1, none, none, none⟩) (.surfaceState 0 .clean .worn 32 .spliceFail) = false
    ∧ mayPass (.endOfProgram .a 1) (.splice ⟨.a, .shock, .abandoned, 12, 2, 1, none, none, none⟩) = false
    ∧ mayPass (.zoneState .a .playing .idle 1 none .command)
        (.splice ⟨.a, .shock, .abandoned, 12, 2, 1, none, none, none⟩) = false := by decide +kernel

theorem witness_PowerOnAndLinkReset : State.reset.inp = .waitIdle ∧ base.inp ≠ .waitIdle := by decide

theorem witness_SoftResetKeepsTheSettings :
    taken (.softReset 1) base = true ∧ taken (.softReset 1) { base with cmi := [[0x0A#8], [0x08#8]] } = true := by
  decide +kernel

theorem witness_DiscardedFramesSetTheirFlags :
    State.reset.inp = .waitIdle ∧ base.inp = .hunting ∧ base.inp ≠ .waitIdle
    ∧ ({ base with inp := .assembling [1#8, 0#8] } : State).inp = .assembling (1#8 :: [0#8])
    ∧ ({ base with inp := .assembling [] } : State).inp = .assembling []
    ∧ base.dlp.framingError = false ∧ base.dlp.checkError = false
    ∧ (delivering { base.dlp with framingError := true, checkError := true }).dlp.framingError = true
    ∧ (delivering { base.dlp with framingError := true, checkError := true }).dlp.checkError = true := by decide

/-- A STATUS QUERY's frame at its last character, a header that fails (a MARK of length 3), and one that goes on; kinds and
lengths at the bounds of the header tests; a control queue with room and a full one. -/
theorem witness_IntakeCharacterAssemblesFrames :
    State.reset.inp = .waitIdle ∧ base.inp = .hunting
    ∧ headerPasses ([0x02#8, 0x00#8] ++ [0x03#8]) = false
    ∧ (headerPasses ([0x02#8, 0x00#8] ++ [0x02#8]) = true ∧ frameComplete ([0x02#8, 0x00#8] ++ [0x02#8]) = false)
    ∧ ([0x08#8].length < 65536
      ∧ [0x03#8, 0x00#8, 0x01#8, 0x08#8, 0x12#8] ++ [0x34#8] = 0x03#8 :: (beBytes 2 [0x08#8].length ++ [0x08#8] ++ [0x12#8, 0x34#8])
      ∧ headerPasses ([0x03#8, 0x00#8, 0x01#8, 0x08#8, 0x12#8] ++ [0x34#8]) = true)
    ∧ (headerPasses [0x01#8, 0x09#8, 0x56#8] = true ∧ headerPasses [0x01#8, 0x09#8, 0x36#8] = true
      ∧ headerPasses [0x01#8, 0x09#8, 0x37#8] = false ∧ headerPasses [0x03#8, 0x00#8, 0x21#8] = false)
    ∧ (headerPasses [0x01#8, 0x09#8, 0x36#8, 0#8, 0#8, 0#8, 0#8, 0#8, 0xFF#8] = true
      ∧ headerPasses [0x01#8, 0x09#8, 0x36#8, 0#8, 0#8, 0#8, 0#8, 0#8, 0x01#8] = false)
    ∧ [0#8, 0#8, 0#8, 0#8, 0#8].length = 5 ∧ [0x08#8, 0x12#8, 0x34#8].length + 3 = 5 + 1
    ∧ base.cmi.length < 4 ∧ 4 ≤ ({ base with cmi := List.replicate 4 [0x08#8] } : State).cmi.length
    ∧ (9#8 = 0#8 ∨ 8 < (9#8).toNat) ∧ (4#8 = 0#8 ∨ 3 < (4#8).toNat) := by decide +kernel

theorem witness_ControlFrameIsQueued :
    base.inp ≠ .waitIdle ∧ ({ base with cmi := [[0x08#8], [0x08#8], [0x08#8]] } : State).cmi.length < 4
    ∧ 4 ≤ ({ base with cmi := [[0x08#8], [0x08#8], [0x08#8], [0x08#8]] } : State).cmi.length
    ∧ (∃ t, exec (.controlFrame [0x08#8]) base = .next t) ∧ base.cmi.length ≤ 4 := by
  refine ⟨by decide, by decide, by decide, ⟨_, rfl⟩, by decide⟩

theorem witness_CharactersMakeAControlFrame :
    1 ≤ [0x08#8].length ∧ [0x08#8].length ≤ 32 ∧ base.inp = .hunting ∧ base.cmi.length < 4 := by decide

theorem witness_ControlPayloadRoundTrip :
    let c := Instr.locate 5 1#8 (BitVec.ofInt 24 (-750))
    c.wf = true ∧ c.rightLen = some (5, 5) ∧ encodeControl c = some [0x16#8, 0x01#8, 0xFF#8, 0xFD#8, 0x12#8] := by
  decide

theorem witness_SectorPayloadRoundTrip :
    ({ sectorAt 5#8 (some 359999) with flags := .runs [⟨587, 65535⟩] } : SectorFrame).wf = true := by decide +kernel

theorem witness_StaleAndSettleSectorsAreDiscarded :
    base.rsc.run = none ∧ base.inp ≠ .waitIdle
    ∧ ((reading runA).rsc.run = some runA ∧ (sectorAt 16#8 none).runId.toNat ≠ runA.id)
    ∧ ((reading { runA with settleLeft := 1 }).rsc.run = some { runA with settleLeft := 1 }
      ∧ (sectorAt 5#8 none).runId.toNat = 5 ∧ 0 < ({ runA with settleLeft := 1 } : Run).settleLeft) := by decide +kernel

/-- A CUEING zone A with a resume watermark of `n` and two sectors in its lane, while its run is outstanding. -/
def cueing (n : Nat) : State :=
  (reading runA).setCtl .a { ctlA .cueing with setup := { Setup.defaultA with resume := n } }

/-- A track that ends behind the sector, with no AUDIO track after it. -/
def endingAt13 : State := (reading runA).setCtl .a { ctlA .playing with active := some ⟨2, 0, 13⟩ }

/-- The lane goes on behind address 12 where its track does, and not where the track ends at 13. -/
theorem goesOnBehind_12 : goesOnBehind .a 12 (reading runA) ∧ ¬ goesOnBehind .a 12 endingAt13 := by
  have h : armedAt .a 12 (reading runA) = none := by decide +kernel
  have k : armedAt .a 12 endingAt13 = none := by decide +kernel
  simp only [goesOnBehind, h, k]
  refine ⟨⟨18000, rfl, by decide⟩, ?_⟩
  rintro ⟨e, he, hlt⟩
  have : appendingEnd .a endingAt13 = some 13 := by decide +kernel
  simp_all

/-- A sector at E, with a free slot and room in the lane; in the second state the other lane joins it; then resume
watermarks that the third sector reaches and does not reach; a run one sector short of its count, a CUE run, and a lane
that goes on behind the sector and one that does not. -/
theorem witness_AcceptedSectorIsStored :
    let s := reading runA
    let j : State := { s with
      sst := { s.sst with lanes := ⟨laneA, ⟨[⟨1, 11, 1, 0, .none⟩], some 0, some 12, .none, some 1, .absent, 0⟩⟩ }
      zone := ⟨ctlA .playing, { ctlA .playing with setup := { Setup.defaultB with enabled := true } }⟩ }
    ((s.inp ≠ .waitIdle ∧ s.rsc.run = some runA ∧ (sectorAt 5#8 (some 12)).runId.toNat = runA.id ∧ runA.settleLeft = 0
      ∧ runA.purpose ≠ .reread ∧ (sectorAt 5#8 (some 12)).readAddress = some runA.expected
      ∧ s.sst.free = 2 :: [3, 4] ∧ 2 < s.sst.slots.length ∧ (s.lane runA.owner).entries.length < 448
      ∧ s.splice runA.owner = none)
    ∧ (j.rsc.run = some runA ∧ j.sst.free = 2 :: [3, 4] ∧ 2 < j.sst.slots.length
      ∧ (j.lane runA.owner).entries.length < 448 ∧ j.splice runA.owner = none
      ∧ joins runA.owner.other runA.expected j = true)
    ∧ (∀ n ∈ [3, 4], (cueing n).rsc.run = some runA ∧ (cueing n).sst.free = 2 :: [3, 4] ∧ (cueing n).splice .a = none
      ∧ ((cueing n).ctl .a).state = .cueing ∧ ((cueing n).ctl .a).setup.resume = n ∧ cover .a (cueing n) + 1 = 3
      ∧ ((cueing n).ctl .a).next = none ∧ appendingEnd .a (cueing n) = some 18000
      ∧ ((cueing n).ctl .a).active = some ⟨1, 0, 18000⟩)
    ∧ ({ runA with received := 9 }.received + 1 = runA.count ∧ runA.received + 1 ≠ runA.count
      ∧ { runA with purpose := .cue }.purpose = .cue ∧ (s.ctl runA.owner.other).state = .idle))
    ∧ goesOnBehind runA.owner runA.expected s ∧ ¬ goesOnBehind runA.owner runA.expected endingAt13
    ∧ (endingAt13.rsc.run = some runA ∧ endingAt13.sst.free = 2 :: [3, 4] ∧ endingAt13.splice .a = none) := by
  exact ⟨by decide +kernel, goesOnBehind_12.1, goesOnBehind_12.2, by decide +kernel⟩

/-- No free slot with room in the lane, a full lane with a free slot, and neither; for a sector at E, and for one with no read
address at streaks 0 and 3. -/
theorem witness_SectorWithNoRoomIsDropped :
    let s := reading runA
    let fullLane := { laneA with entries := List.replicate 448 ⟨0, 10, 1, 0, .none⟩ }
    let noSlot : State := { s with sst := { s.sst with free := [] } }
    let noRoom : State := { s with sst := { s.sst with lanes := ⟨fullLane, Lane.empty⟩ } }
    let neither : State := { s with sst := { s.sst with free := [], lanes := ⟨fullLane, Lane.empty⟩ } }
    (s.inp ≠ .waitIdle ∧ s.rsc.run = some runA ∧ (sectorAt 5#8 (some 12)).runId.toNat = runA.id ∧ runA.settleLeft = 0
      ∧ runA.purpose ≠ .reread ∧ (sectorAt 5#8 (some 12)).readAddress = some runA.expected)
    ∧ (∀ n ∈ [0, 3], (reading { runA with absentStreak := n }).rsc.run = some { runA with absentStreak := n } ∧ n < 4
      ∧ (sectorAt 5#8 none).readAddress = none ∧ ({ runA with absentStreak := n } : Run).addressRead = true)
    ∧ (noSlot.sst.free = [] ∧ (noSlot.lane .a).entries.length < 448)
    ∧ (noRoom.sst.free ≠ [] ∧ 448 ≤ (noRoom.lane .a).entries.length)
    ∧ (neither.sst.free = [] ∧ 448 ≤ (neither.lane .a).entries.length) := by decide +kernel

/-- A lane of five entries, the last `n` appended in the current run. -/
def lane5 (n : Nat) : Lane :=
  ⟨[⟨0, 8, 1, 0, .none⟩, ⟨1, 9, 1, 0, .none⟩, ⟨5, 10, 1, 0, .none⟩, ⟨6, 11, 1, 0, .none⟩, ⟨7, 12, 1, 0, .none⟩], some 0,
    some 13, .none, some 1, .absent, n⟩

/-- Zone A in a state with a lane, track 1 armed for track 2 or not, while its run has seen four sectors with no address in
front of track 1's last address, or of track 2's. -/
def unread (st : ZoneState) (l : Lane) (c : ZoneCtl) (e : Nat) : State :=
  ((reading { runA with expected := e, addressRead := false, absentStreak := 4 }).setCtl .a { c with state := st }).setLane .a l

/-- Runs with no address read and with one read, each one sector short of the fifth and at it; and a lane whose last four
entries pass the tests of a rewind. Then the fifth of a CUEING zone with an empty lane and of a PLAYING one, well before the
track's end and one sector before it, with a track to choose and with none; and with a NEXT that is read over. -/
theorem witness_AddressAbsentSectorsAreCounted :
    let cued := { Lane.empty with tail := some 17999, appending := some 1 }
    let past := { ctlA .playing with next := some ⟨1, 0, 18000, false, .program⟩, program := [1] }
    (∀ r ∈ [{ runA with addressRead := false, absentStreak := 3 }, { runA with addressRead := false, absentStreak := 4 },
        { runA with absentStreak := 3 }, { runA with absentStreak := 4 }],
      (reading r).inp ≠ .waitIdle ∧ (reading r).rsc.run = some r ∧ (sectorAt 5#8 none).runId.toNat = r.id
        ∧ r.settleLeft = 0 ∧ r.purpose ≠ .reread
        ∧ (sectorAt 5#8 none).readAddress = none ∧ (reading r).splice r.owner = none
        ∧ (reading r).sst.free = 2 :: [3, 4] ∧ 2 < (reading r).sst.slots.length
        ∧ ((reading r).lane r.owner).entries.length < 448)
    ∧ (∀ k ∈ [8, 9], ({ runA with absentStreak := 3, received := k }.received + 1 = runA.count ↔ k = 9))
    ∧ goesOnBehind .a 12 (reading runA) ∧ ¬ goesOnBehind .a 12 endingAt13
    ∧ rewindsWhole .a 4 ((reading { runA with absentStreak := 4 }).setLane .a (lane5 4))
    ∧ (∀ x ∈ [unread .cueing cued (ctlA .cueing) 12, unread .playing laneA (ctlA .playing) 12,
        unread .cueing cued (ctlA .cueing) 17999, unread .playing laneA (ctlA .playing) 17999],
      (x.inp ≠ .waitIdle ∧ x.splice .a = none ∧ (x.ctl .a).readOverEnd = none ∧ 0 < (x.ctl .a).setup.resume
        ∧ (x.ctl .a).next = none ∧ (x.ctl .a).active = some ⟨1, 0, 18000⟩ ∧ appendingEnd .a x = some 18000)
        ∧ choiceIs .a 1 2 .order x ∧ x.ttb.bounds 2 = some (18000, 40500))
    ∧ 12 + max 1 (PolicyRow.cleanDefault.gap) < 18000 ∧ 18000 ≤ 17999 + max 1 (PolicyRow.cleanDefault.gap)
    ∧ (∀ x ∈ [unread .cueing cued (lastTrack.ctl .a) 40499, unread .playing laneA (lastTrack.ctl .a) 40499],
      (x.ctl .a).active = some ⟨2, 18000, 40500⟩ ∧ (x.ctl .a).next = none ∧ noChoice .a 2 x)
    ∧ (let x := unread .playing { laneA with boundary := .pending } past 17999
      let used := x.setCtl .a { x.ctl .a with program := programAfter .a .program x }
      (x.ctl .a).next = some ⟨1, 0, 18000, false, .program⟩ ∧ (x.lane .a).boundary = .pending
        ∧ choiceIs .a 1 2 .order used) := by
  refine ⟨by decide +kernel, by decide, goesOnBehind_12.1, goesOnBehind_12.2, ?_, ?_, by decide +kernel, by decide +kernel,
    ?_, ?_⟩
  · unfold rewindsWhole rewindable
    decide +kernel
  · intro x hx
    simp only [List.mem_cons, List.not_mem_nil, or_false] at hx
    obtain rfl | rfl | rfl | rfl := hx <;>
      exact ⟨by decide +kernel, choiceIs_order (by decide +kernel), by decide +kernel⟩
  · unfold noChoice
    decide +kernel
  · exact ⟨by decide +kernel, by decide +kernel, choiceIs_order (by decide +kernel)⟩

/-- A sector below E at streaks 74 and 75, and one above E. -/
theorem witness_SlippedSectorsAreDiscarded :
    (∀ r ∈ [{ runA with backStreak := 74 }, { runA with backStreak := 75 }],
      (reading r).inp ≠ .waitIdle ∧ (reading r).rsc.run = some r ∧ (sectorAt 5#8 (some 11)).runId.toNat = r.id
        ∧ r.settleLeft = 0 ∧ r.purpose ≠ .reread ∧ (sectorAt 5#8 (some 11)).readAddress = some 11 ∧ 11 < r.expected)
    ∧ (sectorAt 5#8 (some 13)).readAddress = some 13 ∧ runA.expected < 13 := by decide +kernel

/-- Staging one sector short of the search size, which is the smaller of the overlap 2 and T plus one. -/
def nearlyStaged : State :=
  { rereading with sst := { rereading.sst with free := [2] }, spl := { rereading.spl with staging := [3, 4] } }

/-- A record in a state, with a search in flight that has found `found`, `staged` slots in staging and no slot free. -/
def noSlotFree (st : SpliceState) (found : Option Nat) (staged : List Nat) : State :=
  { rereading.setSplice .a (some (recA st)) with
    sst := { rereading.sst with free := [] }
    spl := ⟨⟨some (recA st), none⟩, staged, some ⟨.a, [], 0, 0, found⟩⟩ }

/-- Staging short of the search size and one sector short of it, with a window to search for, and without one where a GAP is
pending, T shown by the sector and not shown; a search in flight and a join that waits for a later sector, each with a sector to
come and at the run's last; twelve staged sectors; and no slot free, in each case. -/
theorem witness_RereadSectorIsStaged :
    let s := rereading
    let r := { runA with purpose := .reread }
    let n := nearlyStaged
    let gap := n.setLane .a { laneA with pendingSeam := .gap }
    ((s.inp ≠ .waitIdle ∧ s.rsc.run = some r ∧ (sectorAt 5#8 (some 12)).runId.toNat = r.id ∧ r.settleLeft = 0
      ∧ r.purpose = .reread
      ∧ s.splice r.owner = some (recA .reading) ∧ (recA .reading).state = .reading
      ∧ s.spl.staging.length < min (recA .reading).overlap (recA .reading).tail ∧ s.spl.staging.length < 12
      ∧ r.received + 1 ≠ r.count ∧ s.sst.free = 2 :: [3, 4] ∧ 2 < s.sst.slots.length)
    ∧ (n.inp ≠ .waitIdle ∧ n.rsc.run = some r ∧ n.splice r.owner = some (recA .reading) ∧ n.sst.free = 2 :: []
      ∧ 2 < n.sst.slots.length ∧ n.spl.staging.length = min (recA .reading).overlap (recA .reading).tail
      ∧ 2 ∉ n.spl.staging ∧ 2 ∉ laneSlots .a n
      ∧ (let row := rowOfGranule (sectorEvent (sectorAt 5#8 (some 12)) (framed n)) ((12 - 1) / 75)
        let ref := windowOf .a row.window n
        (n.lane .a).entries ≠ [] ∧ (n.lane .a).pendingSeam ≠ .track ∧ (n.lane .a).pendingSeam ≠ .gap
          ∧ ref.length = row.window ∧ row.window / 2 ≤ (ref.filter fun p => !p.flagged).length))
    ∧ (gap.rsc.run = some r ∧ gap.splice r.owner = some (recA .reading) ∧ gap.sst.free = 2 :: []
      ∧ (gap.lane .a).pendingSeam = .gap ∧ (gap.ctl .a).state = .playing
      ∧ (sectorAt 5#8 (some 12)).readAddress = some (recA .reading).tail ∧ (sectorAt 5#8 none).readAddress = none
      ∧ (gap.slot 3).record.readAddress = none ∧ (gap.slot 4).record.readAddress = none))
    ∧ movable .a 0 12 gap
    ∧ (∀ x ∈ [noSlotFree .searching none [3], noSlotFree .searching (some 1764) [3]], ∀ k ∈ [1, 10],
      let y : State := { x.setRun (some { r with count := k }) with sst := { x.sst with free := [2, 4] } }
      y.inp ≠ .waitIdle ∧ y.rsc.run = some { r with count := k } ∧ (r.received + 1 = k ↔ k = 1)
        ∧ y.splice .a = some (recA .searching) ∧ y.spl.staging.length < 12 ∧ y.sst.free = 2 :: [4]
        ∧ 2 < y.sst.slots.length ∧ 2 ∉ y.spl.staging ∧ y.spl.staging.length < (1764 + 0) / 588)
    ∧ (let x := noSlotFree .searching none (List.range 12)
      x.inp ≠ .waitIdle ∧ x.rsc.run = some r ∧ x.splice r.owner = some (recA .searching) ∧ x.spl.staging.length = 12
        ∧ x.spl.search = some ⟨.a, [], 0, 0, none⟩)
    ∧ (∀ x ∈ [noSlotFree .searching none [3], noSlotFree .searching (some 5) [3], noSlotFree .reading none [3]],
      x.rsc.run = some r ∧ x.sst.free = [] ∧ x.spl.staging.length < 12 ∧ (x.splice r.owner).isSome = true) := by
  exact ⟨by decide +kernel, ⟨by decide +kernel, 18000, rfl, by decide⟩, by decide +kernel⟩

/-- One failure counted already, and two; a REREAD run whose record is READING with three attempts left and with one, and
one whose record is SEARCHING, without and with a join that waits for a sector. -/
theorem witness_RunFailuresAreCounted :
    let s := reading runA
    let two : State := { s with rsc := { s.rsc with failures := 2 } }
    let last := rereading.setSplice .a (some { recA .reading with attemptsLeft := 1 })
    let seeking := rereading.setSplice .a (some (recA .searching))
    let found : State := { seeking with spl := { seeking.spl with search := some ⟨.a, [], 0, 0, some 5⟩ } }
    ((s.inp ≠ .waitIdle ∧ s.rsc.run = some runA ∧ s.rsc.stall = some 200 ∧ runA.purpose ≠ .reread ∧ s.rsc.failures < 2)
    ∧ (two.rsc.run = some runA ∧ two.rsc.stall = some 200 ∧ 2 ≤ two.rsc.failures)
    ∧ (∀ x ∈ [rereading, last, seeking, found], x.inp ≠ .waitIdle ∧ x.rsc.run = some { runA with purpose := .reread }
      ∧ x.rsc.stall.isSome = true ∧ runA.id < 256 ∧ x.rsc.failures < 2)
    ∧ (rereading.splice .a = some (recA .reading) ∧ 2 ≤ (recA .reading).attemptsLeft)
    ∧ last.splice .a = some { recA .reading with attemptsLeft := 1 }
    ∧ (seeking.splice .a = some (recA .searching) ∧ seeking.spl.search = none)
    ∧ (found.splice .a = some (recA .searching) ∧ found.spl.search = some ⟨.a, [], 0, 0, some 5⟩))
    ∧ (5#8).toNat = runA.id ∧ (∀ r, s.rsc.run = some r → (6#8).toNat ≠ r.id) ∧ base.rsc.run = none := by
  refine ⟨by decide +kernel, rfl, ?_, rfl⟩
  rintro r h
  cases h
  decide

/-- Where no staged pair matches a window of one pair, no candidate scores. -/
theorem bestFrom_none (x : MarkedPair) (tol : Nat) (expected : Int) (left p b : Nat) (st : List MarkedPair)
    (h : ∀ y ∈ st, pairScores tol x y = false) : (bestFrom [x] tol expected left p st (b, 0)).2 = 0 := by
  have score : ∀ l : List MarkedPair, (∀ y ∈ l, pairScores tol x y = false) → scoreHere tol [x] l = 0 := by
    intro l hl
    cases l with
    | nil => rfl
    | cons y ys => simp [scoreHere, hl]
  induction left generalizing p b st with
  | zero => rfl
  | succ n ih =>
    rw [bestFrom]
    simp only [score st h]
    have ht := fun y hy => h y (List.mem_of_mem_tail hy)
    split <;> exact ih _ _ _ ht

/-- A window of one pair that no staged pair matches fails where no mismatch is allowed. -/
theorem searchOutcome_none (x : MarkedPair) (o : Nat) (s : State) (hx : x.flagged = false)
    (h : ∀ y ∈ searchStream o s, pairScores 0 x y = false) : searchOutcome ⟨.a, [x], 0, 0, none⟩ o s = none := by
  have h0 : scoreHere 0 [x] (searchStream o s) = 0 := by
    cases hs : searchStream o s with
    | nil => rfl
    | cons y ys => simp [scoreHere, h y (by simp [hs])]
  have hb := bestFrom_none x 0 (expectedPosition o 1) ((searchStream o s).length - 1) 1 0 (searchStream o s).tail
    fun y hy => h y (List.mem_of_mem_tail hy)
  simp [searchOutcome, bestCandidate, h0, hb, usable, hx]

/-- A one-pair window that matches no staged pair, with three attempts left and with one; a staged sector whose read
address is T = 12, and none. -/
theorem witness_FailedSearchIsRetried :
    let w := [(⟨⟨1#16, 1#16⟩, false⟩ : MarkedPair)]
    let q : Search := ⟨.a, w, 0, 0, none⟩
    let last := { recA .searching with attemptsLeft := 1 }
    let s := searching 12 w []
    let bare := (searching 12 w []).setSplice .a (some last)
    let found := ((searching 12 w [2]).setSplice .a (some last)).setSlot 2 ⟨{ Sector.blank with readAddress := some 12 }, 1⟩
    (s.spl.search = some q ∧ s.splice .a = some (recA .searching) ∧ (recA .searching).state = .searching
      ∧ 2 ≤ (recA .searching).attemptsLeft ∧ searchOutcome q (min 2 12) s = none)
    ∧ (bare.spl.search = some q ∧ bare.splice .a = some last ∧ last.attemptsLeft ≤ 1 ∧ bare.spl.staging = []
      ∧ (bare.ctl .a).state = .playing ∧ searchOutcome q (min 2 12) bare = none)
    ∧ (found.spl.search = some q ∧ found.splice .a = some last ∧ found.spl.staging[0]? = some 2
      ∧ (found.slot 2).record.readAddress = some 12 ∧ searchOutcome q (min 2 12) found = none)
    ∧ movable .a 0 12 found
    ∧ (let own : State := { s with rsc := rereading.rsc }
      own.rsc.run = some { runA with purpose := .reread } ∧ own.spl.search = some q ∧ own.splice .a = some (recA .searching)
        ∧ searchOutcome q (min 2 12) own = none) := by
  refine ⟨⟨rfl, rfl, rfl, by decide, searchOutcome_none _ _ _ rfl (by decide +kernel)⟩,
    ⟨rfl, rfl, by decide, rfl, rfl, searchOutcome_none _ _ _ rfl (by decide +kernel)⟩,
    ⟨rfl, rfl, rfl, by decide +kernel, searchOutcome_none _ _ _ rfl (by decide +kernel)⟩,
    ⟨by decide +kernel, 18000, rfl, by decide⟩, rfl, rfl, rfl, searchOutcome_none _ _ _ rfl (by decide +kernel)⟩

/-- With an empty window every candidate scores 0, so position 0 is the best at p_exp = 0. -/
theorem bestFrom_empty (tol left p : Nat) (st : List MarkedPair) :
    bestFrom [] tol 0 left p st (0, 0) = (0, 0) := by
  induction left generalizing p st with
  | zero => rfl
  | succ n ih => simp [bestFrom, scoreHere, beats, candidateDistance, ih]

theorem searchOutcome_empty (s : State) : searchOutcome ⟨.a, [], 0, 0, none⟩ 0 s = some 0 := by
  simp only [searchOutcome, bestCandidate, expectedPosition, scoreHere, bestFrom_empty, Nat.cast_zero, Int.zero_mul,
    Int.sub_zero, List.length_nil]
  rfl

/-- T = 0, so the overlap is 0, and the one staged sector is taken from its first pair on; with nothing staged yet the join
waits, with its own run outstanding and with none, and the sector that comes completes it. -/
theorem witness_AcceptedSearchJoins :
    let s := searching 0 [] [4]
    let r : SpliceRec := { recA .searching with tail := 0 }
    let q : Search := ⟨.a, [], 0, 0, none⟩
    let bare := searching 0 [] []
    let own : State := { bare with rsc := rereading.rsc }
    let x := { runA with purpose := .reread }
    let found : State := { own with spl := { own.spl with search := some { q with found := some 0 } } }
    (s.spl.search = some q ∧ q.found = none ∧ s.splice q.zone = some r ∧ r.state = .searching
      ∧ searchOutcome q (min r.overlap r.tail) s = some 0
      ∧ s.spl.staging[(0 + q.window.length) / 588]? = some 4
      ∧ movable q.zone 0 (r.tail - min r.overlap r.tail + (0 + q.window.length) / 588) s)
    ∧ (bare.spl.search = some q ∧ bare.splice q.zone = some r ∧ searchOutcome q (min r.overlap r.tail) bare = some 0
      ∧ bare.spl.staging.length ≤ (0 + q.window.length) / 588 ∧ bare.rsc.run = none)
    ∧ (own.spl.search = some q ∧ own.splice q.zone = some r ∧ searchOutcome q (min r.overlap r.tail) own = some 0
      ∧ own.rsc.run = some x ∧ x.purpose = .reread ∧ x.owner = q.zone)
    ∧ (found.inp ≠ .waitIdle ∧ found.rsc.run = some x ∧ (sectorAt 5#8 (some 0)).runId.toNat = x.id ∧ x.settleLeft = 0
      ∧ found.spl.search = some { q with found := some 0 } ∧ found.splice q.zone = some r
      ∧ (0 + q.window.length) / 588 = found.spl.staging.length ∧ found.spl.staging.length < 12
      ∧ found.sst.free = 2 :: [3, 4] ∧ 2 < found.sst.slots.length)
    ∧ movable q.zone 0 (r.tail - min r.overlap r.tail + found.spl.staging.length) found := by
  refine ⟨⟨rfl, rfl, rfl, rfl, searchOutcome_empty _, rfl, by decide +kernel, 18000, rfl, by decide⟩,
    ⟨rfl, rfl, searchOutcome_empty _, by decide, rfl⟩, ⟨rfl, rfl, searchOutcome_empty _, rfl, rfl, rfl⟩,
    by decide +kernel, by decide +kernel, 18000, rfl, by decide⟩

/-- Where every pair of the window may mismatch, every search is accepted. -/
theorem searchOutcome_few (q : Search) (o : Nat) (s : State) (h : usable q.window ≤ q.mismatches) :
    ∃ p, searchOutcome q o s = some p :=
  ⟨_, if_pos (Nat.le_trans h (Nat.le_add_left _ _))⟩

/-- 03 R56's threshold: a window of one pair that no staged pair matches scores 0, which fails with U − X = 1 and is
accepted with U − X = 0. -/
theorem test_threshold (s : State) (hs : s = searching 12 [] [3]) :
    searchOutcome ⟨.a, [⟨⟨1#16, 1#16⟩, false⟩], 0, 0, none⟩ 0 s = none
      ∧ ∃ p, searchOutcome ⟨.a, [⟨⟨1#16, 1#16⟩, false⟩], 1, 0, none⟩ 0 s = some p :=
  ⟨searchOutcome_none _ _ _ rfl (by subst hs; decide +kernel), searchOutcome_few _ _ _ (by decide)⟩

/-- A stream longer than its window; two staged sectors and a window of one pair whose mismatch is allowed; and a lane with
no seam and one whose last entry is behind one. -/
theorem witness_SearchTakesTheBestCandidate :
    (([⟨SamplePair.zero, false⟩] : List MarkedPair).length
      ≤ ([⟨⟨1#16, 1#16⟩, false⟩, ⟨SamplePair.zero, false⟩] : List MarkedPair).length)
    ∧ (let w := [(⟨SamplePair.zero, false⟩ : MarkedPair)]
      let s := searching 12 w [3, 4]
      1 + 1 ≤ s.spl.staging.length ∧ w.length ≤ 588 ∧ ∃ p, searchOutcome ⟨.a, w, 1, 0, none⟩ 1 s = some p)
    ∧ (∀ x ∈ [(0, zoneIn .playing), (1, playingLane { laneA with entries := [⟨0, 10, 1, 0, .none⟩, ⟨1, 11, 1, 5, .verified⟩] })],
      (laneSlots .a x.2).Nodup ∧ x.1 < (x.2.lane .a).entries.length
        ∧ (∀ i, i < 2 → ∀ e, (x.2.lane .a).entries[i]? = some e → x.1 < i → e.seam = .none)
        ∧ ∀ e, (x.2.lane .a).entries[x.1]? = some e → e.seam ≠ .none ∨ x.1 = 0) := by
  refine ⟨by decide, ⟨by decide, by decide, searchOutcome_few _ _ _ (by decide)⟩, ?_⟩
  intro x hx
  simp only [List.mem_cons, List.not_mem_nil, or_false] at hx
  obtain rfl | rfl := hx
  · refine ⟨by decide +kernel, by decide +kernel, fun i hi e he hlt => ?_, fun _ _ => .inr rfl⟩
    have : i = 1 := by omega
    subst this
    have h : ((zoneIn .playing).lane .a).entries[1]? = some ⟨1, 11, 1, 0, .none⟩ := by decide +kernel
    rw [h] at he
    cases he
    rfl
  · refine ⟨by decide +kernel, by decide +kernel, fun i hi e he hlt => ?_, fun e he => .inl ?_⟩
    · simp only at hlt
      omega
    · cases he
      decide

/-- A run whose owner lane's last two entries pass the tests of a rewind, two being the CLEAN row's count; an attempt in
flight with three attempts left and with one; and nothing under way. -/
theorem witness_SkipMarkStartsASplice :
    let last := rereading.setSplice .a (some { recA .reading with attemptsLeft := 1 })
    ((reading runA).inp ≠ .waitIdle ∧ (reading runA).rsc.run = some runA ∧ runA.purpose ≠ .reread
      ∧ holdsStaging .a (reading runA) = false ∧ holdsStaging (Zone.a).other (reading runA) = false)
    ∧ (rewindsWhole .a 2 ((reading runA).setLane .a (lane5 2))
      ∧ (rowOfGranule ((reading runA).setLane .a (lane5 2)) ((13 - 1) / 75)).rewind = 2)
    ∧ (∀ x ∈ [rereading, last], x.inp ≠ .waitIdle ∧ holdsStaging (Zone.a).other x = false
      ∧ x.rsc.run = some { runA with purpose := .reread })
    ∧ (rereading.splice .a = some (recA .reading) ∧ (recA .reading).state ≠ .waiting ∧ 2 ≤ (recA .reading).attemptsLeft)
    ∧ last.splice .a = some { recA .reading with attemptsLeft := 1 }
    ∧ base.inp ≠ .waitIdle ∧ base.rsc.run = none ∧ holdsStaging .a base = false ∧ holdsStaging .b base = false := by
  unfold rewindsWhole rewindable
  decide +kernel

/-- A disabled zone, an IDLE one, a CUEING one, and a PAUSED one whose fade is over. -/
theorem witness_SilentFrameIsMuted :
    base.dlp.cadence.get .b = false
    ∧ (base.dlp.cadence.get .a = true ∧ (base.ctl .a).state = .idle)
    ∧ ((zoneIn .cueing).dlp.cadence.get .a = true ∧ ((zoneIn .cueing).ctl .a).state = .cueing
      ∧ position .a (zoneIn .cueing) = some (10, 0))
    ∧ (let s := (zoneIn .paused).setConc .a Cne.silent
      s.dlp.cadence.get .a = true ∧ (s.ctl .a).state = .paused ∧ (s.conc .a).gain = 0
        ∧ position .a s = some (10, 0)) := by decide +kernel

theorem sent_idle {s : State} (h : s.rsc.run = none) : sent s := fun _ hr => by rw [h] at hr; cases hr

/-- A lane with no boundary has none at its head. -/
theorem notAtBoundary {z : Zone} {s : State} (h : (s.lane z).boundary = .absent) : ¬ atBoundaryEntry z s := by
  rintro ⟨e, -, hb⟩
  rw [h] at hb
  cases hb

/-- The last play position at which the head entry holds 147 pairs more is 440: 441 would empty it. Then a lane with no
pair to give, its track going on and at its end; the last pair of a lane at its track's end; and the boundary entry's
first pair; and pair 587 of an entry that another follows, its slot held once and twice. Then a pause fade, on its lane and on
an empty one; the pair of a stop fade at gains 3 and 2, in PLAYING, PAUSED and STARVED; and zones whose pairs are silent. -/
theorem witness_CleanFramePlaysTheLane :
    ((let s := playingLane { laneA with playPos := some 440 }
    s.dlp.cadence.get .a = true ∧ (s.ctl .a).state = .playing
      ∧ (s.lane .a).entries = ⟨0, 10, 1, 0, .none⟩ :: [⟨1, 11, 1, 0, .none⟩] ∧ (s.lane .a).playPos = some 440
      ∧ (s.lane .a).boundary ≠ .entry 0 ∧ (s.slot 0).record.pairs.length = 588
      ∧ (∀ i, i < 147 → flaggedAt (s.slot 0).record.flags (440 + i) = false)
      ∧ (∀ f ∈ [(⟨1, 11, 1, 0, .none⟩ : Entry)], f.seam ≠ .gap ∧ f.seam ≠ .unverified)
      ∧ (s.conc .a).mode = .pass ∧ (s.conc .a).gain = 256
      ∧ (s.conc .a).causes = ⟨false, false, false, false, false⟩)
    ∧ (∀ t ∈ [12, 18000],
      let s := playingLane { Lane.empty with tail := some t, appending := some 1 }
      (s.ctl .a).state = .playing ∧ (s.lane .a).entries = [] ∧ (s.conc .a).causes.stop = false
        ∧ 0 < (s.ctl .a).setup.resume ∧ s.rsc.run = none ∧ s.evReports = 0 ∧ (s.ctl .a).next = none
        ∧ isOpen .a s = decide (t < 18000))
    ∧ (let s := playingLane ⟨[⟨0, 17999, 1, 0, .none⟩], some 587, some 18000, .none, some 1, .absent, 0⟩
      (s.ctl .a).state = .playing ∧ (s.lane .a).entries = [⟨0, 17999, 1, 0, .none⟩] ∧ (s.lane .a).playPos = some 587
        ∧ isOpen .a s = false ∧ (s.ctl .a).next = none ∧ s.rsc.run = none ∧ s.evReports = 0)
    ∧ (let s := armed.setLane .a ⟨[⟨0, 18000, 2, 0, .none⟩], some 0, some 18001, .none, some 2, .entry 0, 0⟩
      s.rsc.run = none ∧ (s.ctl .a).state = .playing ∧ (s.lane .a).boundary = .entry 0 ∧ (s.lane .a).playPos = some 0
        ∧ (s.ctl .a).next = some ⟨2, 18000, 40500, true, .order⟩ ∧ (s.ctl .a).active = some ⟨1, 0, 18000⟩
        ∧ s.splice .a = none ∧ (s.conc .a).causes.stop = false ∧ flaggedAt (s.slot 0).record.flags 0 = false
        ∧ (s.lane .a).tail ≠ some 40500)
    ∧ (∀ h ∈ [1, 2],
      let s := (playingLane { laneA with playPos := some 587 }).setSlot 0 ⟨Sector.blank, h⟩
      (s.ctl .a).state = .playing ∧ (s.lane .a).entries = ⟨0, 10, 1, 0, .none⟩ :: ⟨1, 11, 1, 0, .none⟩ :: []
        ∧ (s.lane .a).playPos = some 587 ∧ (s.lane .a).boundary ≠ .entry 0 ∧ (s.conc .a).causes.stop = false
        ∧ (s.slot 0).holders = h))
    ∧ (let s := zoneIn .paused
      let dry := s.setLane .a { Lane.empty with tail := some 12, appending := some 1 }
      takesPairs .a s ∧ ¬ atBoundaryEntry .a s ∧ ¬ stopFadeEnds .a s ∧ (s.lane .a).playPos = some 0
        ∧ sent dry ∧ (dry.conc .a).gain ≠ 0 ∧ (dry.ctl .a).state = .paused ∧ (dry.lane .a).entries = [])
    ∧ (∀ st ∈ [ZoneState.playing, .paused, .starved], ∀ g ∈ [2, 3],
      let s := (zoneIn st).setConc .a ⟨SamplePair.zero, .pass, g, 0, { Causes.none with stop := true }⟩
      (takesPairs .a s ∨ ((s.ctl .a).state = .starved ∧ (s.conc .a).gain ≠ 0)) ∧ ¬ atBoundaryEntry .a s
        ∧ (stopFadeEnds .a s ↔ g = 2) ∧ 0 < (s.ctl .a).setup.resume ∧ isOpen .a s = true)
    ∧ (∀ st ∈ [ZoneState.paused, .starved], (((zoneIn st).setConc .a Cne.silent).ctl .a).state ∈ [ZoneState.paused, .starved]
      ∧ (((zoneIn st).setConc .a Cne.silent).conc .a).gain = 0) := by
  unfold takesPairs stopFadeEnds
  refine ⟨by decide +kernel,
    ⟨by decide +kernel, notAtBoundary rfl, by decide +kernel, rfl, sent_idle rfl, by decide +kernel, rfl, rfl⟩, ?_,
    by decide +kernel⟩
  intro st hst g hg
  simp only [List.mem_cons, List.not_mem_nil, or_false] at hst hg
  obtain rfl | rfl | rfl := hst <;> obtain rfl | rfl := hg <;>
    exact ⟨by decide +kernel, notAtBoundary rfl, by decide +kernel, by decide +kernel, by decide +kernel⟩

theorem witness_FrameDueLeavesTheOtherZone : base.dlp.cadence.get .a = true := by decide

/-- `base` with its disc in a state. -/
def discIs (d : DiscState) : State := { base with mmn := { base.mmn with disc := d } }

theorem witness_MarksThatAllowReading :
    ((discIs .held).mmn.disc = .held ∧ (discIs .out).mmn.disc ≠ .held) ∧ (discIs .held).inp ≠ .waitIdle
    ∧ base.rsc.run = none ∧ readingAllowed { base with mmn := { base.mmn with focusHeld := false } } = false := by
  decide

theorem witness_TrayHoldAndDiscOut :
    base.inp ≠ .waitIdle ∧ base.mmn.disc = .present ∧ holdsStaging .a base = false ∧ holdsStaging .b base = false
    ∧ (rereading.inp ≠ .waitIdle ∧ rereading.mmn.disc = .present ∧ holdsStaging .a rereading = true)
    ∧ (discIs .held).mmn.disc = .held ∧ (discIs .out).mmn.disc = .out ∧ (discIs .reloading).mmn.disc = .reloading
    ∧ (discIs .loading).mmn.disc = .loading ∧ (discIs .empty).mmn.disc = .empty
    ∧ (discIs .empty).mmn.disc ≠ .present := by decide +kernel

theorem witness_DiscInOnlyReports : base.inp ≠ .waitIdle := by decide

theorem witness_HoldExpiryTearsDown :
    ∀ d ∈ [DiscState.held, .out, .reloading],
      let s : State := { discIs d with mmn := { (discIs d).mmn with holdTimer := some 10 } }
      s.mmn.holdTimer.isSome = true ∧ readingLaw s := by
  unfold readingLaw
  decide +kernel

theorem witness_TableOpenBeginsALoad :
    (∀ d ∈ [DiscState.present, .held, .empty, .loading, .out, .reloading], taken (.tableOpen 1) (discIs d) = true)
    ∧ (discIs .present).mmn.disc = .present ∧ (discIs .out).mmn.disc = .out := by decide +kernel

/-- A load in progress, with one entry. -/
def loading (d : DiscState) : State := { discIs d with ttb := ⟨.opened, [⟨1, 0, .audio⟩], none, none⟩ }

/-- A closed table; a bad kind; track 100, a number that does not follow, an address that does not rise; a good entry. -/
theorem witness_TrackEntryIsTestedInOrder :
    taken (.trackEntry 6 2#8 18000#24 0#8) base = true ∧ base.ttb.state ≠ .opened
    ∧ (taken (.trackEntry 6 2#8 18000#24 2#8) (loading .loading) = true ∧ (loading .loading).ttb.state = .opened
      ∧ 2 ≤ (2#8).toNat)
    ∧ ¬ (1 ≤ (100#8).toNat ∧ (100#8).toNat ≤ 99 ∧ (0#24).toNat ≤ 359999)
    ∧ (loading .loading).ttb.entries.getLast? = some ⟨1, 0, .audio⟩
    ∧ ((1 ≤ (3#8).toNat ∧ (3#8).toNat ≤ 99 ∧ (359999#24).toNat ≤ 359999) ∧ (3#8).toNat ≠ 1 + 1)
    ∧ ((1 ≤ (2#8).toNat ∧ (2#8).toNat ≤ 99 ∧ (0#24).toNat ≤ 359999) ∧ (0#24).toNat ≤ 0)
    ∧ ((1 ≤ (2#8).toNat ∧ (2#8).toNat ≤ 99 ∧ (1#24).toNat ≤ 359999) ∧ (2#8).toNat = 1 + 1 ∧ 0 < (1#24).toNat) := by
  decide +kernel

/-- Zone A in a state at the end of track 1, with an empty lane or not, while a load of one track waits for its close. -/
def closingIn (d : DiscState) (st : ZoneState) (l : Lane) (c : ZoneCtl) : State :=
  ((zoneIn st).setLane .a l |>.setCtl .a { c with state := st, active := some ⟨1, 0, 1⟩ }) |> fun s =>
    { s with mmn := { s.mmn with disc := d }, ttb := ⟨.opened, [⟨1, 0, .audio⟩], none, none⟩ }

/-- A close of one track with lead-out 1: refused by a CLOSED table, by a count of 2, and taken in each disc state. -/
theorem witness_TableCloseDecides :
    (taken (.tableClose 5 1#8 1#24) base = true ∧ base.ttb.state ≠ .opened)
    ∧ (taken (.tableClose 5 2#8 1#24) (loading .loading) = true
      ∧ ¬ ((2#8).toNat = (loading .loading).ttb.entries.length))
    ∧ (∀ d ∈ [DiscState.loading, .out, .reloading], taken (.tableClose 5 1#8 1#24) (loading d) = true
      ∧ (loading d).ttb.state = .opened ∧ 1 ≤ (1#8).toNat ∧ (1#8).toNat = (loading d).ttb.entries.length
      ∧ (1#24).toNat ≤ 360000 ∧ (loading d).ttb.entries.getLast? = some ⟨1, 0, .audio⟩ ∧ 0 < (1#24).toNat
      ∧ (loading d).mmn.disc = d ∧ (loading d).rsc.run = none)
    ∧ (((loading .reloading).ttb.entries.map fun e => e.number * e.start).sum + (1#24).toNat * 100 + (1#8).toNat)
        % 4294967296 = 101
    ∧ ({ loading .reloading with mmn := { (loading .reloading).mmn with retained := some 101 } } : State).mmn.retained
        = some 101
    ∧ (loading .reloading).mmn.retained ≠ some 101 := by decide +kernel

/-- The zones at their tracks' ends that the close finds: repeat TRACK chooses the track again, and repeat OFF none. -/
theorem witness_TableCloseDecides_retry :
    ∀ d ∈ [DiscState.loading, .out, .reloading], ∀ st ∈ [ZoneState.cueing, .playing],
        ∀ l ∈ [{ laneA with tail := some 1 }, { Lane.empty with tail := some 1, appending := some 1 }],
      let s := fun (m : RepeatMode) => closingIn d st l { ctlA st with repeatMode := m }
      let closed := fun (m : RepeatMode) => ({ s m with ttb := ⟨.closed, (s m).ttb.entries, some 1, some 101⟩ } : State)
      (∀ m ∈ [RepeatMode.off, .track], let x := closed m
        taken (.tableClose 5 1#8 1#24) (s m) = true ∧ (x.ctl .a).next = none
          ∧ (x.ctl .a).active = some ⟨1, 0, 1⟩ ∧ (x.ctl .a).state ≠ .idle ∧ (x.lane .a).tail = some 1
          ∧ 0 < (x.ctl .a).setup.resume ∧ (x.ctl .a).readOverEnd = none ∧ x.ttb.bounds 1 = some (0, 1)
          ∧ (waitsEmpty .a x ↔ st = .cueing ∧ l.entries = []) ∧ (retriesSilently .a x ↔ st = .playing)
          ∧ retriesSilently .b x ∧ nothingToArm .b x)
      ∧ noChoice .a 1 (closed .off) ∧ choiceIs .a 1 1 .repeatTrack (closed .track) := by
  intro d hd st hs l hl
  simp only [List.mem_cons, List.not_mem_nil, or_false] at hd hs hl
  unfold waitsEmpty retriesSilently noChoice nothingToArm
  obtain rfl | rfl | rfl := hd <;> obtain rfl | rfl := hs <;> obtain rfl | rfl := hl <;>
    refine ⟨?_, by decide +kernel, choiceIs_track (by decide +kernel)⟩ <;> intro m hm <;>
    simp only [List.mem_cons, List.not_mem_nil, or_false] at hm <;> obtain rfl | rfl := hm <;>
    exact ⟨by decide +kernel, rfl, rfl, by decide +kernel, rfl, by decide +kernel, rfl, by decide +kernel, by decide +kernel,
      by decide +kernel, by decide +kernel, .inr ⟨rfl, .inl rfl⟩⟩

theorem witness_PolicyLoadReplacesARow :
    (∀ st ∈ [0#8, 1#8, 2#8, 3#8, 255#8], taken (.policyLoad 12 st PolicyFields.zero) base = true)
    ∧ 3 ≤ (3#8).toNat := by decide +kernel

/-- A bad enable, a bad priority, a change of enable either way, and none; and a CUEING zone whose cover of 2 is the new resume
watermark, and one whose cover of 1 is below it. -/
theorem witness_ZoneSetupIsBroughtIntoOrder :
    let c := fun (zone enable priority : Byte) => Instr.zoneSetup 14 zone enable priority 448#16 500#16 0#16 0#16 0#16
    (∀ zone ∈ [0#8, 1#8], ∀ e ∈ [0#8, 1#8, 2#8], taken (c zone e 2#8) base = true ∧ taken (c zone e 0#8) base = true)
    ∧ zoneOf 0#8 = some .a ∧ zoneOf 1#8 = some .b
    ∧ (base.ctl .a).setup.enabled = true ∧ (base.ctl .b).setup.enabled = false
    ∧ (base.ctl .a).state ∈ [ZoneState.idle, .playing, .paused]
    ∧ (∀ p ∈ [0, 1], let s := (zoneIn .cueing).setLane .a { laneA with playPos := some p }
      taken (c 0#8 1#8 0#8) s = true ∧ (s.ctl .a).state ∈ [ZoneState.cueing, .starved] ∧ cover .a s = 2 - p
        ∧ max 2 (min 0 447) = 2 ∧ isOpen .a s = true ∧ (s.ctl .a).next = none) := by decide +kernel

theorem witness_LimitsAndLevelsAreReplaced :
    taken (.mechanismSetup 6 0#16 65535#16 61#8) base = true
    ∧ taken (.reportSetup 17 (List.replicate 15 8#8) 255#8) base = true := by decide +kernel

theorem witness_StatusShowsTheBlocks :
    taken (.statusQuery 1) { base with cmi := [[0x08#8], [0x0A#8]] } = true := by decide +kernel

theorem witness_MapQueryPages : taken (.mapQuery 2 255#8) base = true := by decide +kernel

/-- A disabled zone; no disc; a track not in the table; a DATA track; an AUDIO track. -/
theorem witness_PlayCuesTheTrack :
    (∀ zone ∈ [0#8, 1#8], ∀ track ∈ [1#8, 3#8, 9#8], taken (.play 6 zone track 65535#24) base = true)
    ∧ zoneOf 0#8 = some .a ∧ zoneOf 1#8 = some .b ∧ (base.ctl .b).setup.enabled = false
    ∧ (base.ctl .a).setup.enabled = true ∧ (discIs .empty).mmn.disc ≠ .present ∧ (discIs .empty).mmn.disc ≠ .held
    ∧ base.mmn.disc = .present ∧ base.ttb.track 9 = none ∧ base.ttb.track 3 = some ⟨3, 40500, .data⟩
    ∧ base.ttb.track 1 = some ⟨1, 0, .audio⟩ ∧ base.ttb.bounds 1 = some (0, 18000)
    ∧ 0 < (base.ctl .a).setup.resume := by decide +kernel

theorem witness_PauseResumeStop :
    zoneOf 0#8 = some .a ∧ zoneOf 1#8 = some .b
    ∧ (∀ st ∈ [ZoneState.playing, .starved, .paused, .cueing],
      ((zoneIn st).ctl .a).setup.enabled = true ∧ taken (.pause 2 0#8) (zoneIn st) = true
        ∧ taken (.resume 2 0#8) (zoneIn st) = true ∧ taken (.stop 2 0#8) (zoneIn st) = true
        ∧ ((zoneIn st).ctl .a).state = st ∧ 0 < ((zoneIn st).conc .a).gain)
    ∧ (((zoneIn .paused).setConc .a Cne.silent).conc .a).gain = 0
    ∧ (∀ c ∈ [Instr.pause 2 1#8, .resume 2 1#8, .stop 2 1#8, .pause 2 0#8, .resume 2 0#8, .stop 2 0#8], taken c base = true)
    ∧ (base.ctl .b).setup.enabled = false ∧ (base.ctl .a).setup.enabled = true ∧ (base.ctl .a).state = .idle := by
  decide +kernel

theorem witness_NextCommandMovesOn :
    (taken (.next 2 0#8) armed = true ∧ zoneOf 0#8 = some .a ∧ (armed.ctl .a).setup.enabled = true
      ∧ (armed.ctl .a).state ≠ .idle ∧ armed.mmn.disc = .present ∧ (armed.ctl .a).active = some ⟨1, 0, 18000⟩
      ∧ 0 < (armed.ctl .a).setup.resume ∧ (armed.ctl .a).next = some ⟨2, 18000, 40500, true, .order⟩
      ∧ armed.ttb.bounds 2 = some (18000, 40500))
    ∧ (taken (.next 2 0#8) lastTrack = true ∧ (lastTrack.ctl .a).state ≠ .idle ∧ (lastTrack.ctl .a).next = none
      ∧ (lastTrack.ctl .a).active = some ⟨2, 18000, 40500⟩ ∧ chosenNext .a 2 40500 lastTrack = none)
    ∧ (let s := zoneIn .playing
      let p := s.setCtl .a { ctlA .playing with program := [2, 1] }
      taken (.next 2 0#8) s = true ∧ (s.ctl .a).next = none ∧ choiceIs .a 1 2 .order s ∧ (p.ctl .a).next = none
        ∧ choiceIs .a 1 2 .program p ∧ s.ttb.bounds 2 = some (18000, 40500))
    ∧ (zoneOf 1#8 = some .b ∧ taken (.next 2 1#8) base = true ∧ (base.ctl .b).setup.enabled = false
      ∧ taken (.next 2 0#8) base = true ∧ (base.ctl .a).setup.enabled = true ∧ (base.ctl .a).state = .idle)
    ∧ (let s : State := { armed with mmn := { armed.mmn with disc := .out } }
      taken (.next 2 0#8) s = true ∧ (s.ctl .a).setup.enabled = true ∧ (s.ctl .a).state ≠ .idle
        ∧ ¬ (s.mmn.disc = .present ∨ s.mmn.disc = .held)) := by
  exact ⟨by decide +kernel, by decide +kernel, ⟨by decide +kernel, rfl, choiceIs_order (by decide +kernel), rfl,
    choiceIs_program (by decide +kernel), by decide +kernel⟩, by decide +kernel, by decide +kernel⟩

/-- Track 2 at 150 and at 151 sectors in; track 1 has no track below it. -/
def inTrack2 (a : Nat) : State :=
  lastTrack.setLane .a ⟨[⟨0, a, 2, 0, .none⟩], some 0, some (a + 1), .none, some 2, .absent, 0⟩

theorem witness_PreviousAndLocateCue :
    (∀ a ∈ [18150, 18151],
      zoneOf 0#8 = some .a ∧ ((inTrack2 a).ctl .a).setup.enabled = true ∧ ((inTrack2 a).ctl .a).state ≠ .idle
        ∧ (inTrack2 a).mmn.disc = .present ∧ ((inTrack2 a).ctl .a).active = some ⟨2, 18000, 40500⟩
        ∧ (inTrack2 a).ttb.bounds 2 = some (18000, 40500) ∧ position .a (inTrack2 a) = some (a, 0)
        ∧ 0 < ((inTrack2 a).ctl .a).setup.resume ∧ taken (.previous 2 0#8) (inTrack2 a) = true
        ∧ taken (.locate 5 0#8 0xFFFFFF#24) (inTrack2 a) = true)
    ∧ 18000 + 150 < 18151 ∧ 18150 ≤ 18000 + 150
    ∧ base.ttb.highestBelow 2 = some 1 ∧ base.ttb.bounds 1 = some (0, 18000) ∧ base.ttb.highestBelow 1 = none
    ∧ (∀ c ∈ [Instr.previous 2 0#8, .previous 2 1#8, .locate 5 0#8 0#24, .locate 5 1#8 0#24], taken c base = true)
    ∧ zoneOf 1#8 = some .b ∧ (base.ctl .b).setup.enabled = false
    ∧ (base.ctl .a).setup.enabled = true ∧ (base.ctl .a).state = .idle
    ∧ (let s : State := { armed with mmn := { armed.mmn with disc := .out } }
      taken (.previous 2 0#8) s = true ∧ taken (.locate 5 0#8 0#24) s = true ∧ (s.ctl .a).state ≠ .idle
        ∧ ¬ (s.mmn.disc = .present ∨ s.mmn.disc = .held)) := by
  decide +kernel

/-- Zone A at the end of its last track, with an empty list and one of 32 entries; and one with NEXT armed. -/
theorem witness_ProgramCommandsEditTheList :
    let s := (zoneIn .playing).setCtl .a { ctlA .playing with program := List.replicate 32 1 }
    let t := lastTrack.setLane .a { laneA with tail := some 40500 }
    zoneOf 0#8 = some .a ∧ (s.ctl .a).next = none ∧ (t.ctl .a).next = none
    ∧ (∀ n ∈ [1#8, 3#8, 9#8], taken (.programAppend 3 0#8 n) s = true)
    ∧ base.ttb.track 9 = none ∧ base.ttb.track 3 = some ⟨3, 40500, .data⟩
    ∧ s.ttb.track 1 = some ⟨1, 0, .audio⟩ ∧ 32 ≤ (s.ctl .a).program.length
    ∧ (taken (.programAppend 3 0#8 1#8) t = true ∧ (t.ctl .a).program.length < 32
      ∧ (t.ctl .a).active = some ⟨2, 18000, 40500⟩ ∧ (t.ctl .a).state = .playing ∧ (t.lane .a).tail = some 40500
      ∧ (t.ctl .a).program = [] ∧ (t.ctl .a).repeatMode = .off ∧ t.ttb.bounds 1 = some (0, 18000))
    ∧ (∀ n ∈ [0#8, 1#8, 32#8, 33#8], taken (.programRemove 3 0#8 n) s = true)
    ∧ taken (.programClear 2 0#8) s = true
    ∧ (∀ n ∈ [0#8, 2#8, 3#8], taken (.repeatMode 3 0#8 n) s = true)
    ∧ modeOf 0#8 = some .off ∧ (s.ctl .a).repeatMode = .off ∧ modeOf 2#8 = some .list
    ∧ (taken (.programAppend 3 0#8 1#8) armed = true ∧ taken (.programAppend 3 0#8 9#8) armed = true
      ∧ taken (.programRemove 3 0#8 1#8) armed = true ∧ taken (.repeatMode 3 0#8 0#8) armed = true
      ∧ (armed.ctl .a).repeatMode = .off ∧ (armed.ctl .a).program.length < (1#8).toNat
      ∧ (armed.ctl .a).next = some ⟨2, 18000, 40500, true, .order⟩ ∧ (armed.lane .a).boundary ≠ .pending) := by
  decide +kernel

/-- Zone A at the end of track 2 in each state, with an empty lane and not, at which APPEND and a REPEAT LIST give a choice, and
a REPEAT OFF none; and NEXT armed, and read over. -/
theorem witness_ProgramCommandsEditTheList_retry :
    (∀ st ∈ [ZoneState.cueing, .starved, .playing, .paused],
        ∀ l ∈ [{ laneA with tail := some 40500 }, { Lane.empty with tail := some 40500, appending := some 2 }],
      let x := fun (m : RepeatMode) (list : List Nat) =>
        (lastTrack.setLane .a l).setCtl .a { lastTrack.ctl .a with state := st, repeatMode := m, program := list }
      ((∀ c ∈ [Instr.programAppend 3 0#8 1#8, .repeatMode 3 0#8 1#8, .repeatMode 3 0#8 2#8], taken c (x .off []) = true)
        ∧ taken (.repeatMode 3 0#8 0#8) (x .list []) = true
        ∧ ((x .off []).ctl .a).next = none ∧ ((x .off []).ctl .a).active = some ⟨2, 18000, 40500⟩
        ∧ ((x .off []).ctl .a).state ≠ .idle ∧ ((x .off []).lane .a).tail = some 40500
        ∧ 0 < ((x .off []).ctl .a).setup.resume ∧ ((x .off []).ctl .a).readOverEnd = none
        ∧ noChoice .a 2 (x .off []) ∧ base.ttb.bounds 1 = some (0, 18000)
        ∧ (waitsEmpty .a (x .off []) ↔ (st = .cueing ∨ st = .starved) ∧ l.entries = []))
      ∧ choiceIs .a 2 1 .program (x .off [1]) ∧ choiceIs .a 2 1 .order (x .list []))
    ∧ readOverDue .a ⟨2, 18000, 40500, true, .order⟩
        (armed.setLane .a { laneA with tail := some 40500, boundary := .pending })
    ∧ nothingToArm .a armed ∧ nothingToArm .a base ∧ ¬ testsPlay .a armed
    ∧ testsPlay .a (armed.setCtl .a { armed.ctl .a with state := .cueing }) := by
  unfold testsPlay
  refine ⟨?_, ⟨rfl, rfl, rfl⟩, .inl ⟨_, rfl, fun h => by cases h.2.1⟩, .inr ⟨rfl, .inl rfl⟩, by decide +kernel,
    by decide +kernel⟩
  intro st hs l hl
  simp only [List.mem_cons, List.not_mem_nil, or_false] at hs hl
  unfold noChoice waitsEmpty
  obtain rfl | rfl | rfl | rfl := hs <;> obtain rfl | rfl := hl <;>
    exact ⟨by decide +kernel, choiceIs_program (by decide +kernel), choiceIs_list (by decide +kernel)⟩

/-- NEXT armed, its boundary entry the last entry of the lane and its head, of a zone in each state, the run reading on behind
it, with a splice whose T is ACTIVE's end and one before it; the three edits; and a withdrawal after which none is chosen. -/
theorem witness_EditsWithdrawAnArmedNext :
    let s := fun (st : ZoneState) (b : Nat) =>
      ((reading { runA with expected := 18001 }).setCtl .a { armed.ctl .a with state := st, program := [2, 1] }).setLane .a
        { laneA with boundary := .entry b, tail := some 18001 }
    (∀ st ∈ [ZoneState.cueing, .starved, .playing, .paused], ∀ b ∈ [0, 1],
      (∀ c ∈ [Instr.programClear 2 0#8, .programRemove 3 0#8 1#8, .programRemove 3 0#8 2#8, .repeatMode 3 0#8 2#8],
        taken c (s st b) = true)
      ∧ ((s st b).ctl .a).active = some ⟨1, 0, 18000⟩ ∧ ((s st b).ctl .a).next = some ⟨2, 18000, 40500, true, .order⟩
      ∧ ((s st b).ctl .a).state ≠ .idle ∧ 0 < ((s st b).ctl .a).setup.resume ∧ ((s st b).lane .a).boundary = .entry b
      ∧ ((s st b).ctl .a).repeatMode = .off ∧ ((s st b).ctl .a).program.length = 2
      ∧ (s st b).rsc.run = some { runA with expected := 18001 } ∧ (18001 : Nat) ≠ 18000)
    ∧ zoneOf 0#8 = some .a ∧ modeOf 2#8 = some .list ∧ [2, 1].eraseIdx 0 = [1]
    ∧ choiceIs .a 1 2 .order ((s .playing 1).setCtl .a { (s .playing 1).ctl .a with program := [] })
    ∧ choiceIs .a 1 1 .program ((s .playing 1).setCtl .a { (s .playing 1).ctl .a with program := [1] })
    ∧ base.ttb.bounds 2 = some (18000, 40500)
    ∧ (∀ t ∈ [18000, 12], ((s .playing 1).setSplice .a (some { recA .waiting with tail := t })).splice .a =
        some { recA .waiting with tail := t })
    ∧ (let x := lastTrack.setCtl .a { lastTrack.ctl .a with next := some ⟨1, 0, 18000, false, .program⟩ }
       taken (.programClear 2 0#8) x = true ∧ (x.ctl .a).active = some ⟨2, 18000, 40500⟩
        ∧ (x.ctl .a).next = some ⟨1, 0, 18000, false, .program⟩ ∧ (x.ctl .a).readOverEnd = none
        ∧ noChoice .a 2 (x.setCtl .a { x.ctl .a with program := [] })) := by
  unfold noChoice
  exact ⟨by decide +kernel, by decide, by decide, by decide, choiceIs_order (by decide +kernel),
    choiceIs_program (by decide +kernel), by decide +kernel, by decide +kernel, by decide +kernel⟩

theorem witness_BadFieldRefusalsOnlyReport :
    taken (.unknownCommandCode 1 0x0B#8) base = true
    ∧ ((Instr.pause 3 0#8).rightLen = some (3, 2) ∧ taken (.pause 3 0#8) base = true)
    ∧ (2 ≤ (2#8).toNat ∧ taken (.pause 2 2#8) base = true ∧ taken (.play 6 2#8 1#8 0#24) base = true
      ∧ taken (.zoneSetup 14 2#8 0#8 0#8 0#16 0#16 0#16 0#16 0#16) base = true) := by decide +kernel

/-- Zone A in class 1 before zone B in class 5; both in class 5 with A HIGH, and, both LOW, after a run of B's. Lanes with
each demand class. Zone A's REFILL run while B is CUEING, which preempts it once A's demand has gone; and a lane of B that
has joined A's run, and one that has not. -/
theorem witness_GrantGoesToTheNeedierZone :
    let wants := fun (a b : Option Nat) => ({ base with rsc := { Rsc.initial with demand := ⟨a, b⟩ } } : State)
    let low := fun (s : State) => ({ s with
      zone := ⟨ZoneCtl.initial { Setup.defaultA with priority := .low }, ZoneCtl.initial Setup.defaultB⟩
      rsc := { s.rsc with prevOwner := some .b } } : State)
    let asks := fun (s : State) => (s.ctl .a).state != .idle && decide ((s.lane .a).entries.length < 448)
      && (s.lane .a).tail == some 12 && appendingEnd .a s == some 18000
    let outranked : State := (((reading runA).setCtl .a { ctlA .playing with
        setup := { Setup.defaultA with critical := 1, lowWater := 3 } }).setCtl .b { ctlA .cueing with
        setup := Setup.defaultB }).setLane .b { Lane.empty with tail := some 30 }
    let joined : State := (outranked.setCtl .b { ctlA .playing with setup := Setup.defaultB }).setLane .b
      { laneA with runCount := 1 }
    ((wants (some 1) (some 5)).rsc.run = none ∧ readingAllowed (wants (some 1) (some 5)) = true
      ∧ (wants (some 1) (some 5)).rsc.demand.get .a = some 1
      ∧ (wants (some 1) (some 5)).rsc.demand.get (Zone.a).other = some 5)
    ∧ (((wants (some 5) (some 5)).ctl .a).setup.priority = .high ∧ ((wants (some 5) (some 5)).ctl .b).setup.priority = .low)
    ∧ (((low (wants (some 5) (some 5))).ctl .a).setup.priority = ((low (wants (some 5) (some 5))).ctl .b).setup.priority
      ∧ (low (wants (some 5) (some 5))).rsc.prevOwner = some (Zone.a).other)
    ∧ ((reading runA).rsc.run ≠ none ∧ readingAllowed (discIs .out) = false
      ∧ (wants none none).rsc.demand = ⟨none, none⟩)
    ∧ ((base.ctl .a).state = .idle ∧ asks (zoneIn .cueing) ∧ asks (zoneIn .starved) ∧ asks (zoneIn .playing)
      ∧ asks outranked ∧ asks rereading ∧ rereading.splice .a = some (recA .reading)
      ∧ (∀ n ∈ [2, 3], let s := ((zoneIn .playing).setSplice .a (some (recA .waiting))).setCtl .a { ctlA .playing with
          setup := { Setup.defaultA with critical := n } }
        asks s ∧ s.splice .a = some (recA .waiting) ∧ s.splice (Zone.a).other = none ∧ cover .a s = 2))
    ∧ (outranked.rsc.run = some runA ∧ outranked.dlp.line.isSome = true ∧ runA.purpose = .refill
      ∧ (refresh outranked).rsc.demand = ⟨some 5, some 2⟩ ∧ (refresh outranked).rsc.demand ≠ outranked.rsc.demand)
    ∧ ((reading runA).rsc.run = some runA ∧ (reading runA).dlp.line.isSome = true
      ∧ (refresh (reading runA)).rsc.demand = ⟨some 3, none⟩)
    ∧ ((joined.lane (Zone.a).other).tail = some runA.expected ∧ 0 < (joined.lane (Zone.a).other).runCount
      ∧ isOpen (Zone.a).other joined = true)
    ∧ ¬ (outranked.lane (Zone.a).other).tail = some runA.expected := by decide +kernel

/-- A CUE, a REFILL and a REREAD that end below the lead-out, one that would not, and a table with no lead-out. -/
theorem witness_GrantedRunStaysInBounds :
    base.ttb.leadOut = some 63000 ∧ (newRun .a (zoneIn .cueing)).wanted < 63000
    ∧ (zoneIn .cueing).splice .a = none ∧ ((zoneIn .cueing).ctl .a).state = .cueing
    ∧ (zoneIn .playing).splice .a = none ∧ ((zoneIn .playing).ctl .a).state ≠ .cueing
    ∧ rereading.splice .a = some (recA .reading) ∧ (recA .reading).tail < 63000
    ∧ (let s : State := { zoneIn .playing with ttb := { base.ttb with leadOut := some 13 } }
      s.ttb.leadOut = some 13 ∧ (newRun .a s).wanted = 12 ∧ cover .a s = 2 ∧ 13 < 12 + min 64 (max 1 (240 - 2)))
    ∧ ({ zoneIn .playing with ttb := Ttb.emptied } : State).ttb.leadOut = none := by decide +kernel

/-- A map of some CLEAN records of count 1, in granule order. -/
def mapOf (n : Nat) : Sfm :=
  { Sfm.initial with records := (List.range n).map (fun g => ⟨g, 1, .clean⟩), recency := List.range n }

/-- Sectors with no address, WHOLE, with a run and with none at qualities 12 and 11; maps with a record for the granule,
without one and with room, and full; records one short of a threshold and at it, either way, and one at count 1; and a full
map of WORN records. -/
theorem witness_HealthEventsScoreTheMap :
    ((sectorAt 5#8 none).readAddress = none ∧ (sectorAt 5#8 (some 12)).readAddress = some 12
      ∧ standardFlags .whole = .whole ∧ standardFlags (.runs [⟨587, 9⟩]) = .runs (⟨587, 1⟩ :: [])
      ∧ standardFlags (.runs []) = .runs [] ∧ 12 ≤ ({ sectorAt 5#8 (some 12) with quality := 12 } : SectorFrame).quality
      ∧ ({ sectorAt 5#8 (some 12) with quality := 11 } : SectorFrame).quality < 12)
    ∧ (∀ n ∈ [1, 63, 64], mapLaw (mapOf n))
    ∧ (mapOf 1).find 0 = some ⟨0, 1, .clean⟩ ∧ (mapOf 1).find 9 = none
    ∧ ((mapOf 63).find 99 = none ∧ (mapOf 63).records.length < 64)
    ∧ ((mapOf 64).find 99 = none ∧ (mapOf 64).records.length = 64)
    ∧ (∀ r ∈ [(⟨0, 31, .clean⟩ : SurfaceRec), ⟨0, 30, .clean⟩, ⟨0, 127, .worn⟩, ⟨0, 16, .worn⟩, ⟨0, 17, .worn⟩, ⟨0, 96, .damaged⟩,
        ⟨0, 1, .clean⟩], let m : Sfm := { mapOf 1 with records := [r] }
      mapLaw m ∧ m.find 0 = some r)
    ∧ (let m : Sfm := { mapOf 64 with records := (List.range 64).map (fun g => ⟨g, 40, .worn⟩) }
      mapLaw m ∧ m.find 99 = none ∧ m.records.length = 64) := by
  unfold mapLaw recordLaw
  decide +kernel

theorem witness_StandardFlagsFlagTheSamePairs :
    (FlagList.runs [⟨587, 65535⟩, ⟨0, 1⟩]).wf = true ∧ FlagList.whole.wf = true := by decide

/-- A head entry flagged at pairs 585 to 587, alone and before an unflagged entry behind each kind of seam. Then zone A at
an unflagged and at a flagged pair in each mode, the line busy, the run too long at a WHOLE sector and good at a short run,
behind a NONE and behind a GAP seam; and a later entry behind a GAP seam, begun within 128 pairs and not. Last, pair 587, in front of another
entry and alone in an open lane and in one at its track's end, where a run there is long; and the line idle with no run
outstanding, with no boundary and at one. -/
theorem witness_FlaggedRunsAreMeasuredAndInterpolated :
    let sec : Nat → Sector := fun n => ⟨none, if n = 0 then .runs [⟨585, 3⟩] else .runs [], quietPairs⟩
    let at_ := fun (m : Mode) (fl : FlagList) (seam : Seam) =>
      ((playingLane { laneA with entries := [⟨0, 10, 1, 0, seam⟩, ⟨1, 11, 1, 0, .gap⟩] }).setSlot 0
        ⟨⟨none, fl, quietPairs⟩, 1⟩).setConc .a ⟨SamplePair.zero, m, 256, 256, Causes.none⟩
    let run := fun (s : State) => measureRun (fun n => (s.slot n).record) (rowOfGranule s (10 / 75)).lmax
      (s.lane .a).entries 0
    let mid : Mode := .interpolating SamplePair.zero SamplePair.zero 5 2 0
    (((∀ i, i < 3 → flaggedAt (sec 0).flags (585 + i) = true) ∧ 585 + 3 = 588)
    ∧ (let five : Nat → Sector := fun _ => ⟨none, .runs [⟨10, 5⟩], quietPairs⟩
      (∀ i, i < 5 → flaggedAt (five 0).flags (10 + i) = true) ∧ ¬ flaggedAt (five 0).flags (10 + 5) = true
        ∧ 10 + 5 ≤ 587 ∧ 10 + 4 ≤ 587)
    ∧ Seam.gap ∈ [Seam.verified, .unverified, .gap] ∧ Seam.track ∈ [Seam.none, .track]
    ∧ flaggedAt (sec 1).flags 587 = false
    ∧ (∀ m ∈ [Mode.pass, .holding, mid], ∀ fl ∈ [FlagList.whole, .runs [⟨0, 5⟩], .runs []], ∀ seam ∈ [Seam.none, .gap],
      let s := at_ m fl seam
      takesPairs .a s ∧ ¬ stopFadeEnds .a s ∧ (s.lane .a).entries = ⟨0, 10, 1, 0, seam⟩ :: [⟨1, 11, 1, 0, .gap⟩]
        ∧ (s.lane .a).playPos = some 0 ∧ (s.conc .a).mode = m ∧ s.dlp.line.isSome = true
        ∧ flaggedAt (s.slot 0).record.flags 0 = (fl != .runs []))
    ∧ run (at_ .pass .whole .none) = .long .tooLong
    ∧ run (at_ .pass (.runs [⟨0, 5⟩]) .none) = .good SamplePair.zero 0 5 0
    ∧ ([(⟨1, 11, 1, 0, .gap⟩ : Entry)][0]? = some ⟨1, 11, 1, 0, .gap⟩ ∧ 588 - 460 + 0 ≤ 128 ∧ ¬ 588 - 459 + 0 ≤ 128))
    ∧ (∀ rest ∈ [[(⟨1, 11, 1, 0, .gap⟩ : Entry)], []], ∀ tail ∈ [11, 18000],
      let s := (at_ .pass .whole .none).setLane .a
        { laneA with entries := ⟨0, 10, 1, 0, .none⟩ :: rest, playPos := some 587, tail := some tail }
      (takesPairs .a s ∧ ¬ stopFadeEnds .a s ∧ (s.lane .a).playPos = some 587 ∧ (isOpen .a s = true ↔ tail = 11)
        ∧ flaggedAt (s.slot 0).record.flags 587 = true ∧ (s.conc .a).mode = .pass ∧ (s.ctl .a).next = none)
        ∧ ∃ why, measureRun (fun n => (s.slot n).record) (rowOfGranule s (10 / 75)).lmax (s.lane .a).entries 587
          = .long why)
    ∧ (let idle : State := { at_ .pass .whole .none with dlp := { base.dlp with line := none } }
      let boundary := idle.setLane .a { idle.lane .a with boundary := .entry 0 }
      (sent idle ∧ ¬ atBoundaryEntry .a idle)
        ∧ sent boundary ∧ atBoundaryEntry .a boundary ∧ boundary.splice .a = none ∧ ¬ stopFadeEnds .a boundary) := by
  unfold takesPairs stopFadeEnds
  refine ⟨by decide +kernel, ?_, ⟨sent_idle rfl, notAtBoundary rfl⟩, sent_idle rfl, ⟨_, rfl, rfl⟩, rfl, by decide +kernel⟩
  intro rest hr tail ht
  simp only [List.mem_cons, List.not_mem_nil, or_false] at hr ht
  obtain rfl | rfl := hr <;> obtain rfl | rfl := ht <;>
    exact ⟨by decide +kernel, _, by rfl⟩

theorem witness_OutputSampleIsScaled : (256 : Nat) ≤ 256 := by decide

theorem witness_GainMovesByItsStep : (1 : Nat) ≤ 256 ∧ (256 : Nat) ≤ 256 := by decide

/-- The invariants hold of the state after power-on with a command waiting, and a step is taken there. -/
theorem witness_StepKeepsBoundsSetupsAndGain :
    let s := { State.reset with pending := [.discIn] }
    bounded s ∧ setupsLaw s ∧ gainLaw s ∧ ∃ t, step s = .next t := by
  refine ⟨?_, ?_, ?_, _, rfl⟩
  · unfold bounded both; decide +kernel
  · unfold setupsLaw setupLaw both; decide +kernel
  · unfold gainLaw both; decide +kernel

theorem witness_StepKeepsMapLaw :
    let s := { State.reset with sfm := mapOf 64, pending := [.discIn] }
    mapLaw s.sfm ∧ ∃ t, step s = .next t := by
  refine ⟨?_, _, rfl⟩
  unfold mapLaw recordLaw
  decide +kernel

/-- Slot 0 in zone A's lane, slot 1 in both lanes, slot 2 in staging, the others free. -/
def pooled : State :=
  { zoneIn .playing with
    sst := ⟨[⟨Sector.blank, 1⟩, ⟨Sector.blank, 2⟩, ⟨Sector.blank, 1⟩] ++ List.replicate 509 ⟨Sector.blank, 0⟩,
      List.range' 3 509, ⟨laneA, { laneA with entries := [⟨1, 11, 1, 0, .none⟩] }⟩⟩
    spl := { Spl.initial with staging := [2] }
    pending := [.frameDue .a] }

theorem pooled_references (n : Nat) (h : 3 ≤ n) : references n pooled = 0 := by
  have hA : laneSlots .a pooled = [0, 1] := rfl
  have hB : laneSlots .b pooled = [1] := rfl
  have hS : pooled.spl.staging = [2] := rfl
  simp only [references, hA, hB, hS, List.count_cons, List.count_nil, beq_iff_eq]
  simp only [show ¬ (0 = n) by omega, show ¬ (1 = n) by omega, show ¬ (2 = n) by omega, if_false]

theorem witness_StepKeepsPoolLaw :
    poolLaw pooled ∧ laneLaw pooled ∧ (∀ c, pooled.pending.head? = some c → seamsTell c pooled)
      ∧ ∃ t, step pooled = .next t := by
  refine ⟨⟨by decide +kernel, List.nodup_range', fun n => ?_, by decide +kernel, fun n h => pooled_references n (by omega),
    by decide +kernel, by decide +kernel, by decide +kernel, by decide +kernel⟩, ⟨⟨?_, ?_⟩, ?_⟩, ?_, _, rfl⟩
  · have hf : pooled.sst.free = List.range' 3 509 := rfl
    rw [hf, List.mem_range'_1]
    constructor
    · intro h
      exact ⟨by omega, pooled_references n h.1⟩
    · rintro ⟨h, k⟩
      refine ⟨?_, by omega⟩
      by_contra hn
      have : ∀ m, m < 3 → references m pooled ≠ 0 := by decide +kernel
      exact this n (by omega) k
  · refine ⟨?_, by decide +kernel, ?_, ?_, by decide +kernel⟩
    · rintro (_ | i) e f he hf -
      · cases he
        cases hf
        rfl
      · change ([] : List Entry)[i]? = some f at hf
        simp at hf
    · rintro - - e he
      cases he
      rfl
    · rintro r hr
      cases hr
  · refine ⟨?_, by decide +kernel, ?_, ?_, by decide +kernel⟩
    · intro i e f _ hf
      change ([] : List Entry)[i]? = some f at hf
      simp at hf
    · rintro - - e he
      cases he
      rfl
    · rintro r hr
      cases hr
  · rintro r hr
    cases hr
  · rintro c hc
    cases hc
    exact ⟨⟨fun _ h => absurd rfl h, fun ⟨_, _, _, h⟩ => by simp at h⟩,
      ⟨fun _ h => absurd rfl h, fun ⟨_, _, _, h⟩ => by simp at h⟩⟩

theorem witness_StepKeepsReadingLaw :
    let s := { reading runA with pending := [.discIn] }
    readingLaw s ∧ ∃ t, step s = .next t := by
  refine ⟨?_, _, rfl⟩
  unfold readingLaw
  decide +kernel

theorem witness_StepKeepsContextLaw :
    let s := { zoneIn .playing with pending := [.frameDue .b] }
    contextLaw s ∧ ∃ t, step s = .next t := by
  refine ⟨?_, _, rfl⟩
  unfold contextLaw contextLawOf both
  decide +kernel

end Sys2Proof.Tests
end

-- ==== Invariants: what the shared operations keep ====
section
/-! SUPPORT. Invariants of the whole machine. `Scheduled`, `Closed` and `Law` name the few primitive changes of the state
that a property must bear; from these, every operation of the model keeps it, and so every step does. Each law of the
manual is then settled by its primitive changes alone. -/

namespace Sys2Proof.Safety

open Sys2Proof.Machine

theorem onlyReports.onlyDelivery {s t : State} (h : onlyReports s t) : Safety.onlyDelivery s t := by
  unfold onlyReports at h
  unfold Safety.onlyDelivery
  rw [h]

/-! ## The delivery line and the scheduler -/

/-- A run record that comes in place of another: none, or one with the other's owner, purpose and expected address. -/
def continues (o' o : Option Run) : Prop :=
  ∀ q, o' = some q → ∃ r, o = some r ∧ q.owner = r.owner ∧ q.purpose = r.purpose ∧ q.expected = r.expected

theorem continues_refl (o : Option Run) : continues o o := fun q h => ⟨q, h, rfl, rfl, rfl⟩

theorem continues_none (o : Option Run) : continues none o := fun _ h => by cases h

/-- A property that the delivery line and the scheduler's own work keep. -/
structure Scheduled (I : State → Prop) : Prop where
  delivery : ∀ {s t : State}, onlyDelivery s t → I s → I t
  rsc : ∀ {s : State} (r : Rsc), continues r.run s.rsc.run → I s → I { s with rsc := r }
  issue : ∀ {s : State} {z : Zone}, s.rsc.run = none → granted (refresh s) = some z → I s → I (issueRun z (refresh s))

namespace Scheduled

variable {I : State → Prop} (h : Scheduled I) {s : State}
include h

theorem post (r : Report) (hs : I s) : I (Machine.post r s) := h.delivery (onlyReports_post r s).onlyDelivery hs

theorem placeReport (r : Report) (hs : I s) : I (Machine.placeReport r s) :=
  h.delivery (onlyReports_placeReport r s).onlyDelivery hs

theorem inOrder (hs : I s) : I (Machine.inOrder s) := h.delivery (t := Machine.inOrder s) rfl hs

theorem setOverrun (hs : I s) : I (Machine.setOverrun s) := h.delivery (t := Machine.setOverrun s) rfl hs

theorem refresh (hs : I s) : I (Machine.refresh s) := h.rsc _ (continues_refl _) hs

theorem rearm (hs : I s) : I (Machine.rearm s) := h.rsc _ (continues_refl _) hs

theorem clearFailures (hs : I s) : I (Machine.clearFailures s) := h.rsc _ (continues_refl _) hs

theorem setRun (o : Option Run) (k : continues o s.rsc.run) (hs : I s) : I (s.setRun o) := h.rsc _ k hs

/-- A grant made after a recomputation, as every grant is. -/
theorem grant (hs : I s) : I (Machine.grant (Machine.refresh s)) := by
  unfold Machine.grant
  split
  · rename_i k
    simp only [Bool.and_eq_true, Option.isNone_iff_eq_none] at k
    split
    · exact h.refresh hs
    · rename_i z hz
      exact h.refresh (h.issue k.1 hz hs)
  · exact h.refresh hs

theorem haltRun (halt : Bool) (id : Nat) (hs : I s) : I (Machine.haltRun halt id s) := by
  unfold Machine.haltRun
  split
  · exact h.delivery (t := withdrawReadRun id s) rfl hs
  · split
    · exact h.delivery (t := placeRequest (.readHalt id) s) rfl hs
    · exact hs

theorem dropRun (halt : Bool) (hs : I s) : I (Machine.dropRun halt s) := by
  unfold Machine.dropRun
  split
  · exact hs
  · rename_i r _
    have hf : I (forgetRun r s) := h.rsc _ (continues_none _) hs
    exact h.haltRun halt r.id (h.delivery (onlyDelivery_sentByNow r.id _) hf)

/-- A run's end keeps what its consequences make of the state without the run (02 R23). -/
theorem endRun (halt : Bool) (f : State → State) (hf : I (f (Machine.dropRun halt s))) : I (Machine.endRun halt f s) :=
  h.grant hf

theorem cutRun (hs : I s) : I (Machine.cutRun s) := h.endRun true id (h.dropRun true hs)

theorem review (hs : I s) : I (Machine.review s) := by
  unfold Machine.review
  dsimp only
  split
  · exact h.refresh hs
  · split
    · exact h.grant hs
    · split
      · exact h.cutRun (h.refresh hs)
      · exact h.refresh hs

theorem preemptTest (hs : I s) : I (Machine.preemptTest s) := by
  unfold Machine.preemptTest
  split
  · exact h.cutRun hs
  · exact hs

theorem cutReread (z : Zone) (hs : I s) : I (Machine.cutReread z s) := by
  unfold Machine.cutReread
  split
  · exact h.cutRun hs
  · exact hs

theorem clearMechFault (hs : I s) : I (Machine.clearMechFault s) := by
  unfold Machine.clearMechFault
  split
  · exact h.grant (h.rsc _ (continues_refl _) hs)
  · exact hs

theorem allowAgain (before : Bool) (hs : I s) : I (Machine.allowAgain before s) := by
  unfold Machine.allowAgain
  split
  · exact h.grant hs
  · exact hs

theorem countFailure (r : Run) (kind : FailKind) (hs : I s) : I (Machine.countFailure r kind s) := by
  unfold Machine.countFailure
  dsimp only
  split
  · exact h.rsc _ (continues_refl _) hs
  · exact h.post _ (h.rsc _ (continues_refl _) hs)

theorem dropSector (x : Zone) (hs : I s) : I (Machine.dropSector x s) := by
  unfold Machine.dropSector
  split
  · split
    · exact h.setOverrun hs
    · have hf : I { s with free := s.free + 1 } := h.delivery (t := { s with free := s.free + 1 }) rfl hs
      dsimp only
      split
      · exact h.setOverrun hf
      · exact hf
  · exact hs

theorem discReport (old : DiscState) (cause : DiscCause) (hs : I s) : I (Machine.discReport old cause s) := h.post _ hs

theorem refuse (code : Byte) (why : Reason) (hs : I s) : I (Machine.refuse code why s) := h.post _ hs

end Scheduled

/-! ## Lanes, splices and zones -/

/-- The outstanding run is no CUE or REFILL run of the zone's. -/
def notOwned (z : Zone) (o : Option Run) : Prop := ∀ r, o = some r → r.purpose ≠ .reread → r.owner ≠ z

theorem notOwned_none (z : Zone) : notOwned z none := fun _ h => by cases h

/-- The store once the staged sectors that an accepted join or UNVERIFIED fallback moves are in the lane, and the others are
released (03 R57, R59). -/
def joinedStore (z : Zone) (k : Nat) (slots : List Nat) (a offset : Nat) (seam : Seam) (s : State) : State :=
  let m := moveStaged z slots a offset seam s
  let t := dropHolds (s.spl.staging.take k ++ s.spl.staging.drop (k + m.1)) m.2
  { t with spl := { t.spl with staging := [], search := none } }

/-- A property that the end of a splice keeps, for the zones in `p`. -/
structure Spliced (p : Zone → Prop) (I : State → Prop) : Prop extends Scheduled I where
  discard : ∀ {s : State} {z : Zone}, p z → I s → I (s.setSplice z none)
  flushStaging : ∀ {s : State}, I s → I (flushStaging s)

/-- A property that the operations on a zone's lane, splice, controller and concealment keep, for the zones in `p`; the
zone's tail may be moved while `q` holds of the outstanding run. -/
structure Closed (p : Zone → Prop) (q : Zone → Option Run → Prop) (I : State → Prop) : Prop extends Spliced p I where
  idle : ∀ z, q z none
  spliced : ∀ {s : State} {z : Zone}, s.splice z ≠ none → I s → q z s.rsc.run
  ctl : ∀ {s : State} {z : Zone} (c : ZoneCtl), c.setup = (s.ctl z).setup →
    c.program.length ≤ (s.ctl z).program.length → I s → I (s.setCtl z c)
  conc : ∀ {s : State} {z : Zone} (c : Cne), ((s.conc z).gain ≤ 256 → c.gain ≤ 256) →
    (c.target = 0 ∨ c.target = 256 ∨ c.target = (s.conc z).target) → I s → I (s.setConc z c)
  health : ∀ {s : State} (g : Nat) (c : Int) (k : SurfaceCause), I s → I (healthEvent g c k s)
  search : ∀ {s : State} (x : Option Search), I s → I { s with spl := { s.spl with search := x } }
  replace : ∀ {s : State} {z : Zone} (r : SpliceRec), s.splice z ≠ none → I s → I (s.setSplice z (some r))
  convert : ∀ {s : State} {z : Zone} {r : Run} (c : Run), s.rsc.run = some r → s.splice z = none → c.owner = z →
    (s.lane z).tail = some c.expected → I s → I (s.setRun (some c))
  armed : ∀ {s : State} {z : Zone} (n : NextCtx), p z → q z s.rsc.run → I s → I (s.setLane z ((s.lane z).armed n))
  readOver : ∀ {s : State} {z : Zone} (n : NextCtx), p z → q z s.rsc.run → I s → I (s.setLane z ((s.lane z).readOver n))
  unbound : ∀ {s : State} {z : Zone}, I s → I (s.setLane z { s.lane z with boundary := .absent })
  stepOver : ∀ {s : State} {z : Zone} (a : Nat), p z → q z s.rsc.run → I s → I (stepOver z a s)
  cued : ∀ {s : State} {z : Zone} (a track : Nat), p z → q z s.rsc.run → (s.lane z).entries = [] → I s →
    I (s.setLane z
      { s.lane z with tail := some a, appending := some track, pendingSeam := .none, boundary := .absent })
  flush : ∀ {s : State} {z : Zone}, p z → I s → I (flushWith z s) ∧ q z (flushWith z s).rsc.run
  take : ∀ {s : State} {z : Zone}, I s → I (takePair z s)
  join : ∀ {s : State} {z : Zone} (k : Nat) (slots : List Nat) (a offset : Nat) (seam : Seam), p z → s.splice z ≠ none →
    slots <+: s.spl.staging.drop k → seam = .verified ∨ seam = .unverified → I s →
    I ((joinedStore z k slots a offset seam s).setSplice z none)

/-! ## What the zone operations leave of RSC and of a splice -/

theorem popProgram_eq (z : Zone) (s : State) :
    popProgram z s = s ∨ ∃ p, p.length ≤ (s.ctl z).program.length ∧ popProgram z s = s.setCtl z { s.ctl z with program := p } := by
  unfold popProgram
  dsimp only
  split
  · exact .inl rfl
  · rename_i n rest hp
    refine .inr ⟨_, ?_, rfl⟩
    rw [hp]
    split <;> simp

theorem consumeOrigin_eq (z : Zone) (o : Origin) (s : State) :
    consumeOrigin z o s = s
      ∨ ∃ p, p.length ≤ (s.ctl z).program.length ∧ consumeOrigin z o s = s.setCtl z { s.ctl z with program := p } := by
  unfold consumeOrigin
  split
  · exact popProgram_eq z s
  · exact .inl rfl

theorem consumeOrigin_rsc (z : Zone) (o : Origin) (s : State) : (consumeOrigin z o s).rsc = s.rsc := by
  obtain e | ⟨p, -, e⟩ := consumeOrigin_eq z o s
  · rw [e]
  · rw [e]
    rfl

/-- The end of a splice commutes with the arming that comes before it. -/
theorem armOrReadOver_setSplice_none (z : Zone) (s : State) :
    (armOrReadOver z s).setSplice z none = armOrReadOver z (s.setSplice z none) := by
  unfold armOrReadOver
  have hc : (s.setSplice z none).ctl z = s.ctl z := rfl
  have hl : (s.setSplice z none).lane z = s.lane z := rfl
  rw [hc, hl]
  split
  · unfold armNext
    dsimp only
    rw [hc, hl]
    split
    · rfl
    · split
      · rfl
      · rw [show chosenNext z _ _ (s.setSplice z none) = chosenNext z _ _ s from rfl]
        split <;> rfl
  · rename_i n _
    split
    · unfold readOver
      have ho : consumeOrigin z n.origin (s.setSplice z none) = (consumeOrigin z n.origin s).setSplice z none := by
        unfold consumeOrigin popProgram
        dsimp only
        rw [hc]
        split
        · split <;> rfl
        · rfl
      dsimp only
      rw [ho, show chosenNext z _ _ ((consumeOrigin z n.origin s).setSplice z none)
        = chosenNext z _ _ (consumeOrigin z n.origin s) from rfl]
      split <;> rfl
    · rfl

/-- The zone's tests begin no splice (06 R103 to R105). -/
theorem zoneTests_splice {z : Zone} {s : State} (h : s.splice z = none) : (zoneTests z s).splice z = none := by
  unfold zoneTests
  split
  · split
    · rw [(enterState_spec z .playing .cover s).splice]
      exact h
    · split
      · unfold endProgram
        rw [(enterIdle_spec z .endOfProgram _).splice]
        simpa using (flushWith_spec z s).2.2.1
      · exact h
  · exact h

theorem readInStep_prefix (s : State) (ns : List Nat) (a : Nat) : readInStep s ns a <+: ns := by
  induction ns generalizing a with
  | nil => exact List.prefix_refl _
  | cons n ns ih =>
    unfold readInStep
    split
    · exact (List.prefix_cons_inj n).mpr (ih _)
    · exact List.nil_prefix

theorem flushStaging_splice (s : State) : (flushStaging s).splice = s.splice := by
  rw [flushStaging_only]
  rfl

namespace Spliced

variable {p : Zone → Prop} {I : State → Prop} (h : Spliced p I) {s : State} {z : Zone}
include h

theorem endSplice (hz : p z) (o : SpliceOutcome) (a b : Option Nat) (m : Option Int) (hs : I s) :
    I (Machine.endSplice z o a b m s) := by
  unfold Machine.endSplice
  split
  · exact hs
  · exact h.post _ (h.discard hz hs)

theorem abandonSplice (hz : p z) (hs : I s) : I (Machine.abandonSplice z s) := by
  unfold Machine.abandonSplice
  split
  · exact hs
  · refine h.endSplice hz _ _ _ _ ?_
    split
    · exact h.cutReread z (h.flushStaging hs)
    · exact hs

theorem abandonIfMoved (hz : p z) (hs : I s) : I (Machine.abandonIfMoved z s) := by
  unfold Machine.abandonIfMoved
  split
  · exact hs
  · split
    · exact hs
    · exact h.abandonSplice hz hs

end Spliced

namespace Closed

variable {p : Zone → Prop} {q : Zone → Option Run → Prop} {I : State → Prop} (h : Closed p q I) {s : State} {z : Zone}
include h

theorem enterState (new : ZoneState) (cause : ZoneCause) (hs : I s) : I (Machine.enterState z new cause s) := by
  unfold Machine.enterState
  exact h.post _ (h.conc _ id (.inr (.inr rfl)) (h.ctl _ rfl le_rfl hs))

theorem silence (hs : I s) : I (Machine.silence z s) := h.conc _ (fun _ => by decide) (.inl rfl) hs

theorem enterIdle (cause : ZoneCause) (hs : I s) : I (Machine.enterIdle z cause s) := by
  unfold Machine.enterIdle
  exact h.enterState _ _ (h.silence (h.ctl _ rfl le_rfl hs))

theorem endProgram (hz : p z) (hs : I s) : I (Machine.endProgram z s) := by
  unfold Machine.endProgram
  exact h.enterIdle _ (h.post _ (h.flush hz hs).1)

theorem zoneTests (hz : p z) (hs : I s) : I (Machine.zoneTests z s) := by
  unfold Machine.zoneTests
  split
  · split
    · exact h.enterState _ _ hs
    · split
      · exact h.endProgram hz hs
      · exact hs
  · exact hs

theorem consumeOrigin (o : Origin) (hs : I s) : I (Machine.consumeOrigin z o s) := by
  obtain e | ⟨l, hl, e⟩ := consumeOrigin_eq z o s <;> rw [e]
  · exact hs
  · exact h.ctl _ rfl hl hs

theorem armNext (hz : p z) (hq : q z s.rsc.run) (hs : I s) : I (Machine.armNext z s) := by
  unfold Machine.armNext
  dsimp only
  split
  · exact hs
  · split
    · exact hs
    · split
      · exact hs
      · exact h.armed (s := s.setCtl z _) _ hz hq (h.ctl _ rfl le_rfl hs)

theorem readOverNext (n : NextCtx) (hz : p z) (hq : q z s.rsc.run) (hs : I s) : I (Machine.readOver z n s) := by
  have ht := h.consumeOrigin (z := z) n.origin hs
  have hr : q z (Machine.consumeOrigin z n.origin s).rsc.run := by rw [consumeOrigin_rsc]; exact hq
  unfold Machine.readOver
  dsimp only
  split
  · exact h.readOver (s := (Machine.consumeOrigin z n.origin s).setCtl z _) _ hz hr (h.ctl _ rfl le_rfl ht)
  · exact h.unbound (s := (Machine.consumeOrigin z n.origin s).setCtl z _) (h.ctl _ rfl le_rfl ht)

theorem armOrReadOver (hz : p z) (hq : q z s.rsc.run) (hs : I s) : I (Machine.armOrReadOver z s) := by
  unfold Machine.armOrReadOver
  split
  · exact h.armNext hz hq hs
  · split
    · exact h.readOverNext _ hz hq hs
    · exact hs

theorem settleTail (hz : p z) (hq : q z s.rsc.run) (hs : I s) : I (Machine.settleTail z s) :=
  h.zoneTests hz (h.abandonIfMoved hz (h.armOrReadOver hz hq hs))

theorem cue (track : Nat) (bounds : Nat × Nat) (a : Nat) (hz : p z) (hs : I s) : I (Machine.cue z track bounds a s) := by
  obtain ⟨hf, hq⟩ := h.flush hz hs
  have he : ((flushWith z s).lane z).entries = [] := by rw [(flushWith_spec z s).2.2.2]; rfl
  unfold Machine.cue
  exact h.review (h.zoneTests hz (h.enterState _ _ (h.silence
    (h.cued (s := (flushWith z s).setCtl z _) a track hz hq he (h.ctl _ rfl le_rfl hf)))))

/-! ### How a splice attempt resolves -/

theorem dealRun (whole : Bool) (tail : Nat) (hp : s.splice z = none) (hs : I s) :
    I (Machine.dealRun z whole tail s) := by
  unfold Machine.dealRun
  split
  · exact hs
  · rename_i r hr
    split
    · rename_i ho
      split
      · rename_i ht
        exact h.convert _ hr hp ho.2 ht.2.2 hs
      · exact h.cutRun hs
    · exact hs

/-- A splice that ends after the arming of NEXT, the property being kept without its record. -/
theorem endSplice_of_discarded (o : SpliceOutcome) (a b : Option Nat) (m : Option Int) (hs : I (s.setSplice z none)) :
    I (Machine.endSplice z o a b m s) := by
  unfold Machine.endSplice
  split
  · rename_i hn
    have e : s.setSplice z none = s := by
      unfold State.setSplice
      rw [← hn]
      cases z <;> rfl
    rw [← e]
    exact hs
  · exact h.post _ hs

theorem joinStaged (k : Nat) (slots : List Nat) (a offset : Nat) (seam : Seam) (report : Nat → State → State)
    (hr : ∀ m t, ∃ o x y i, report m t = Machine.endSplice z o x y i t) (hz : p z) (hp : s.splice z ≠ none)
    (hl : slots <+: s.spl.staging.drop k) (hm : seam = .verified ∨ seam = .unverified) (hs : I s) :
    I (Machine.joinStaged z k slots a offset seam report s) := by
  have hj := h.join k slots a offset seam hz hp hl hm hs
  have hq : q z ((joinedStore z k slots a offset seam s).setSplice z none).rsc.run := by
    have e : ∀ (ns : List Nat) (b o : Nat) (m : Seam) (t : State), (moveStaged z ns b o m t).2.rsc = t.rsc := by
      intro ns
      induction ns with
      | nil => intros; rfl
      | cons n ns ih =>
        intro b o m t
        unfold moveStaged
        split
        · exact ih _ _ _ _
        · rfl
    show q z (joinedStore z k slots a offset seam s).rsc.run
    unfold joinedStore
    dsimp only
    rw [dropHolds_only, e]
    exact h.spliced hp hs
  unfold joinedStore at hj hq
  unfold Machine.joinStaged
  dsimp only at hj hq ⊢
  generalize moveStaged z slots a offset seam s = m at hj hq ⊢
  generalize ({ dropHolds (List.take k s.spl.staging ++ List.drop (k + m.1) s.spl.staging) m.2 with spl := _ } : State) = t at hj hq ⊢
  obtain ⟨o, x, y, i, e⟩ := hr m.1 (if m.1 = 0 then t else Machine.armOrReadOver z t)
  rw [e]
  refine h.preemptTest (h.review (h.dealRun _ _ (zoneTests_splice (endSplice_splice z o x y i _)) (h.zoneTests hz ?_)))
  refine h.endSplice_of_discarded o x y i ?_
  split
  · exact hj
  · rw [armOrReadOver_setSplice_none]
    exact h.armOrReadOver hz hq hj

theorem verifiedJoin (r : SpliceRec) (x w : Nat) (hz : p z) (hp : s.splice z ≠ none) (hs : I s) :
    I (Machine.verifiedJoin z r x w s) := by
  unfold Machine.verifiedJoin
  exact h.joinStaged _ _ _ _ _ _ (fun _ _ => ⟨_, _, _, _, rfl⟩) hz hp (List.prefix_refl _) (.inl rfl) hs

theorem unverifiedJoin (r : SpliceRec) (hz : p z) (hp : s.splice z ≠ none) (hs : I s) :
    I (Machine.unverifiedJoin z r s) := by
  unfold Machine.unverifiedJoin
  exact h.joinStaged _ _ _ _ _ _ (fun _ _ => ⟨_, _, _, _, rfl⟩) hz hp (readInStep_prefix s _ _) (.inr rfl) hs

theorem gapFallback (r : SpliceRec) (hz : p z) (hp : s.splice z ≠ none) (hs : I s) :
    I (Machine.gapFallback z r s) := by
  have hq : q z (Machine.flushStaging s).rsc.run := by
    have hk := h.spliced hp hs
    rw [flushStaging_only]
    exact hk
  unfold Machine.gapFallback
  have ht := h.stepOver (r.tail + (rowOfGranule (Machine.flushStaging s) (spliceGranule r.tail)).gap) hz hq (h.flushStaging hs)
  exact h.review (h.cutReread z (h.zoneTests hz (h.endSplice hz _ _ _ _ (h.armOrReadOver hz hq ht))))

theorem fallback (r : SpliceRec) (hz : p z) (hp : s.splice z ≠ none) (hs : I s) : I (Machine.fallback z r s) := by
  unfold Machine.fallback
  split
  · exact h.unverifiedJoin r hz hp hs
  · exact h.gapFallback r hz hp hs

theorem failedAttempt (hz : p z) (hs : I s) : I (Machine.failedAttempt z s) := by
  unfold Machine.failedAttempt
  split
  · exact hs
  · rename_i r hr
    have hn : s.splice z ≠ none := by rw [hr]; exact Option.some_ne_none r
    have hh := h.health (spliceGranule r.tail) 16 .spliceFail hs
    have hn' : (healthEvent (spliceGranule r.tail) 16 .spliceFail s).splice z ≠ none := by
      rw [(healthEvent_only _ _ _ s).splice]
      exact hn
    dsimp only
    split
    · refine h.review (h.cutReread z (h.replace _ ?_ (h.flushStaging hh)))
      rw [flushStaging_splice]
      · exact hn'
    · exact h.fallback _ hz (by simp) (h.replace _ hn' hh)

theorem abortAttempt (hz : p z) (hs : I s) : I (Machine.abortAttempt z s) := by
  unfold Machine.abortAttempt
  split
  · exact hs
  · rename_i r hr
    have hn : (Machine.flushStaging s).splice z ≠ none := by
      rw [flushStaging_splice, hr]
      exact Option.some_ne_none r
    split
    · exact hs
    · dsimp only
      split
      · exact h.replace _ hn (h.flushStaging hs)
      · exact h.gapFallback _ hz (by simp) (h.replace _ hn (h.flushStaging hs))

theorem abortAttempts {flying : PerZone Bool} (ha : flying.a = true → p .a) (hb : flying.b = true → p .b) (hs : I s) :
    I (Machine.abortAttempts flying s) := by
  have ht : I (if flying.a = true then Machine.abortAttempt .a s else s) := by
    split
    · rename_i k
      exact h.abortAttempt (ha k) hs
    · exact hs
  unfold Machine.abortAttempts
  dsimp only
  split
  · rename_i k
    exact h.abortAttempt (hb k) ht
  · exact ht

theorem keepUncountedOf (hs : I s) : I (Machine.keepUncountedOf z s) := by
  unfold Machine.keepUncountedOf
  split
  · exact hs
  · rename_i r hr
    split
    · exact hs
    · refine h.replace _ ?_ (h.flushStaging hs)
      rw [flushStaging_splice, hr]
      exact Option.some_ne_none r

theorem keepUncounted (hs : I s) : I (Machine.keepUncounted s) := h.keepUncountedOf (h.keepUncountedOf hs)

theorem rereadEnded (hz : p z) (hs : I s) : I (Machine.rereadEnded z s) := by
  unfold Machine.rereadEnded
  split
  · exact hs
  · split
    · exact hs
    · exact h.abortAttempt hz hs
    · split
      · split
        · exact h.failedAttempt hz hs
        · exact hs
      · exact hs

theorem startDecision (r : SpliceRec) (hz : p z) (hp : s.splice z ≠ none) (hs : I s) :
    I (Machine.startDecision z r s) := by
  unfold Machine.startDecision
  dsimp only
  split
  · exact h.review (h.replace (s := { s with spl := _ }) _ hp (h.search _ hs))
  · exact h.fallback r hz hp hs

theorem stagedArrived (hz : p z) (hs : I s) : I (Machine.stagedArrived z s) := by
  unfold Machine.stagedArrived
  split
  · exact hs
  · rename_i r hr
    have hn : s.splice z ≠ none := by rw [hr]; exact Option.some_ne_none r
    split
    · exact hs
    · split
      · exact h.startDecision r hz hn hs
      · exact hs
    · split
      · exact hs
      · split
        · exact hs
        · split
          · exact h.verifiedJoin r _ _ hz hn hs
          · exact hs

theorem searchResolves (r : SpliceRec) (x : Search) (hz : p z) (hp : s.splice z ≠ none) (hs : I s) :
    I (Machine.searchResolves z r x s) := by
  unfold Machine.searchResolves
  split
  · exact h.failedAttempt hz hs
  · split
    · exact h.verifiedJoin r _ _ hz hp hs
    · split
      · exact h.search _ hs
      · exact h.failedAttempt hz hs

theorem sectorEvent (f : SectorFrame) (hs : I s) : I (Machine.sectorEvent f s) := by
  unfold Machine.sectorEvent
  split
  · exact hs
  · exact h.health _ _ _ hs

theorem failRun (r : Run) (kind : FailKind) (hz : p r.owner) (hs : I s) : I (Machine.failRun r kind s) := by
  unfold Machine.failRun
  dsimp only
  split
  · exact h.rereadEnded hz (h.countFailure r kind hs)
  · exact h.countFailure r kind hs

theorem withdrawRest (hz : p z) (hq : q z (Machine.abandonIfMoved z s).rsc.run) (hs : I s) :
    I (Machine.withdrawRest z s) := by
  unfold Machine.withdrawRest
  exact h.settleTail (s := (Machine.inOrder (Machine.abandonIfMoved z s)).setCtl z _) hz hq
    (h.ctl _ rfl le_rfl (h.inOrder (h.abandonIfMoved hz hs)))

end Closed
end Sys2Proof.Safety
end

-- ==== Invariants: what a step keeps ====
section
/-! SUPPORT. A `Law` is kept by every step: one lemma for each command, from the operations' own. -/

namespace Sys2Proof.Safety

open Sys2Proof.Machine

/-- A law that every step keeps. `I` holds between two commands; `J` while a lane's tail may have moved from its run's expected
address; `q` holds of a run while the zone's tail may be moved and `I` kept; `K x` after zone `x` has been put on the splice path; `fits` of a state in which an armed NEXT may be withdrawn. -/
structure Law (p : Zone → Zone → Prop) (q : Zone → Option Run → Prop) (fits I J : State → Prop) (K : Zone → State → Prop) : Prop where
  strict : Closed (fun _ => True) q I
  loose : Closed (fun _ => True) (fun _ _ => True) J
  weak : ∀ x, Closed (p x) q (K x)
  other : ∀ x, p x x.other
  loosen : ∀ {s : State}, I s → J s
  weaken : ∀ {s : State} (x : Zone), I s → K x s
  tighten : ∀ {s : State}, J s →
    (∀ r, s.rsc.run = some r → r.purpose ≠ .reread → (s.lane r.owner).tail = some r.expected) → I s
  flying : ∀ {s : State} {r : Run}, s.rsc.run = some r → r.purpose ≠ .reread → I s →
    p r.owner r.owner ∨ holdsStaging r.owner s = false
  store : ∀ {s : State} {r : Run} (q : Run) (rec : Sector), s.rsc.run = some r → r.purpose ≠ .reread →
    canStore r.owner s = true → q.owner = r.owner → q.purpose = r.purpose → q.expected = r.expected + 1 → I s →
    I ((storeSector r.owner rec r.expected s).setRun (some q))
  stage : ∀ {s t : State} {rec : Sector} {n : Nat}, s.spl.staging.length < 12 → takeSlot rec s = some (n, t) → I s →
    I (holdSlot n { t with spl := { t.spl with staging := t.spl.staging ++ [n] } })
  capture : ∀ {s : State} (x : Zone) (c : SpliceCause), s.rsc.run = none → I s → K x (splicePath x c s)
  trim : ∀ {s : State} {z : Zone} {a : Active}, fits s → (s.ctl z).active = some a → (s.ctl z).next ≠ none → I s →
    J (trimLane z a.track a.stop s)
  fits_of : ∀ {s t : State}, t.lane = s.lane →
    (∀ z, (t.ctl z).active = (s.ctl z).active ∧ (t.ctl z).next = (s.ctl z).next) → fits s → fits t
  program : ∀ {s : State} {z : Zone} (l : List Nat), l.length ≤ 32 → I s → I (setProgram z l s)
  setup : ∀ {s : State} {z : Zone} (e : Bool) (k : Priority) (t l r c f : Nat), I s →
    I (s.setCtl z { s.ctl z with setup := setupOf e k t l r c f (s.ctl z.other).setup.target })
  outside : ∀ {s : State} (i : Inp) (b : Ttb) (m : Mmn) (l : List Instr), I s →
    I { s with inp := i, ttb := b, mmn := m, pending := l }
  cmi : ∀ {s : State} (l : List (List Byte)), (s.cmi.length ≤ 4 → l.length ≤ 4) → I s → I { s with cmi := l }
  policy : ∀ {s : State} (st : SurfaceState) (f : PolicyFields), I s → I { s with sfm := s.sfm.setRow st (policyOf f) }
  unmapped : ∀ {s : State}, I s → I { s with sfm := { s.sfm with records := [], recency := [] } }
  powerOn : ∀ {s : State}, I s → I { State.reset with sst := s.sst.cleared, free := s.free, pending := s.pending }
  linkReset : ∀ {s : State}, I s → I (linkReset s)
  softReset : ∀ {s : State}, I s → I (softReset s)

/-! ## The gate of a command -/

theorem cmiCarry_eq (c : Instr) (body : State → State) (s : State) :
    cmiCarry c body s = s ∨ ∃ l, l.length ≤ s.cmi.length ∧ cmiCarry c body s = body { s with cmi := l } := by
  unfold cmiCarry
  split
  · rename_i h
    exact .inr ⟨s.cmi, le_rfl, rfl⟩
  · rename_i f rest h
    split
    · exact .inr ⟨rest, by rw [h]; simp, rfl⟩
    · exact .inl rfl

theorem abandonIfMoved_run_none {z : Zone} {s : State} (h : s.rsc.run = none) :
    (abandonIfMoved z s).rsc.run = none := by
  have he : ∀ t : State, t.rsc.run = none → (endSplice z .abandoned none none none t).rsc.run = none := by
    intro t ht
    unfold endSplice
    split
    · exact ht
    · rw [post_rsc]
      exact ht
  have hf : (flushStaging s).rsc = s.rsc := by rw [flushStaging_only]
  unfold abandonIfMoved
  split
  · exact h
  · split
    · exact h
    · unfold abandonSplice
      split
      · exact h
      · refine he _ ?_
        split
        · unfold cutReread ownsReread
          rw [hf, h]
          simpa [hf] using h
        · exact h

/-- The gain stays within its bounds as it steps toward its target (05 R83, R91). -/
theorem stepGain_le {g target : Nat} (step : Nat) (hg : g ≤ 256) (ht : target ≤ 256) :
    stepGain g target step ≤ 256 := by
  unfold stepGain
  split <;> omega

namespace Law

variable {p : Zone → Zone → Prop} {q : Zone → Option Run → Prop} {fits I J : State → Prop} {K : Zone → State → Prop} (h : Law p q fits I J K)
variable {s t : State} {z : Zone}
include h

/-! ## Runs that end, and tails that have moved -/

theorem dropRun (halt : Bool) (hs : J s) : I (Machine.dropRun halt s) :=
  h.tighten (h.loose.dropRun halt hs) fun r hr => by rw [dropRun_run] at hr; cases hr

theorem endRun (halt : Bool) (f : State → State) (hf : ∀ u : State, u.rsc.run = none → I u → I (f u)) (hs : J s) :
    I (Machine.endRun halt f s) :=
  h.strict.endRun halt f (hf _ (dropRun_run halt s) (h.dropRun halt hs))

/-- The owner lane is held against the run: where its tail has moved, the run is cut (02 R32). -/
theorem checkOwnerLane (hs : J s) : I (Machine.checkOwnerLane s) := by
  unfold Machine.checkOwnerLane
  split
  · rename_i hr
    exact h.tighten hs fun r k => by rw [hr] at k; cases k
  · rename_i r hr
    split
    · exact h.endRun true id (fun _ _ k => k) hs
    · rename_i hc
      refine h.tighten hs fun q hq hp => ?_
      rw [hr] at hq
      cases hq
      by_contra hn
      exact hc ⟨hp, .inl hn⟩

theorem retryChoice (hs : I s) : I (Machine.retryChoice z s) :=
  h.strict.review (h.checkOwnerLane (h.loose.settleTail trivial trivial (h.loosen hs)))

theorem swap (hs : I s) : I (Machine.swap z s) := by
  unfold Machine.swap
  split
  · exact hs
  · refine h.checkOwnerLane (h.loose.settleTail trivial trivial (h.loosen (h.strict.post _ ?_)))
    exact h.strict.ctl _ rfl le_rfl (h.strict.consumeOrigin (s := s.setCtl z _) _ (h.strict.ctl _ rfl le_rfl hs))

theorem withdraw (hf : fits s) (hs : I s) : I (Machine.withdraw z s) := by
  unfold Machine.withdraw
  split
  · rename_i n a hn ha
    have ht := h.trim hf ha (by rw [hn]; exact Option.some_ne_none n) hs
    refine h.strict.review ?_
    split
    · exact h.endRun true _ (fun u hu k => h.strict.withdrawRest trivial
        (by rw [abandonIfMoved_run_none hu]; exact h.strict.idle z) k) ht
    · exact h.checkOwnerLane (h.loose.withdrawRest trivial trivial ht)
  · exact hs

/-! ## Frames of audio -/

theorem stopDone (hs : I s) : I (Machine.stopDone z s) :=
  h.strict.enterIdle _ (h.strict.flush trivial (h.strict.inOrder hs)).1

theorem stopTest (hs : I s) : I (Machine.stopTest z s) := by
  unfold Machine.stopTest
  split
  · exact h.stopDone hs
  · exact hs

theorem drain (hs : I s) : I (Machine.drain z s) := by
  have ht : I (if atBoundary (s.lane z) then Machine.swap z (takePair z s) else takePair z s) := by
    split
    · exact h.swap (h.strict.take hs)
    · exact h.strict.take hs
  unfold Machine.drain
  dsimp only
  generalize (if atBoundary (s.lane z) then Machine.swap z (takePair z s) else takePair z s) = u at ht ⊢
  refine h.strict.review (h.stopTest ?_)
  split
  · exact h.strict.endProgram trivial (h.strict.inOrder ht)
  · exact ht

theorem finishPair_kept (fade : Nat) (before : SamplePair) (c : Cne) (k : c.gain = (s.conc z).gain) (hs : I s) :
    I (s.setConc z (finishPair fade before c).2) := by
  have ht : targetFor c.causes = 0 ∨ targetFor c.causes = 256 := by
    unfold targetFor
    split
    · exact .inl rfl
    · exact .inr rfl
  refine h.strict.conc _ (fun hg => ?_) (ht.imp_right .inl) hs
  refine stepGain_le _ (k ▸ hg) ?_
  obtain e | e := ht <;> rw [e]
  decide

theorem produceLane (e : Entry) (rest : List Entry) (hs : I s) : I (Machine.produceLane z e rest s).2 := by
  unfold Machine.produceLane
  dsimp only
  refine h.drain ?_
  split
  · exact h.strict.post _ (h.finishPair_kept _ _ _ rfl hs)
  · exact h.finishPair_kept _ _ _ rfl hs

theorem produceHeld (shortfall : Bool) (hs : I s) : I (Machine.produceHeld z shortfall s).2 := by
  have ht := h.finishPair_kept (z := z) (s.ctl z).setup.fade (s.conc z).held (s.conc z) rfl hs
  unfold Machine.produceHeld
  dsimp only
  refine h.strict.review (h.stopTest ?_)
  split
  · exact h.strict.zoneTests trivial ht
  · exact ht

theorem starve (hs : I s) : I (Machine.starve z s) :=
  h.strict.review (h.strict.post _ (h.strict.enterState _ _ hs))

theorem producePair (hs : I s) : I (Machine.producePair z s).2 := by
  unfold Machine.producePair
  dsimp only
  split
  · exact h.produceLane _ _ hs
  · refine h.produceHeld _ ?_
    split
    · exact h.starve hs
    · exact hs
  · exact hs

theorem producePairs (n : Nat) (hs : I s) : I (Machine.producePairs n z s).2 := by
  induction n generalizing s with
  | zero => exact hs
  | succ n ih => exact ih (h.producePair (h.strict.inOrder hs))

theorem frameDue (hs : I s) : I (Machine.frameDue z s) := by
  unfold Machine.frameDue
  split
  · exact h.strict.delivery (s := (Machine.producePairs 147 z s).2) rfl (h.producePairs 147 hs)
  · exact hs

theorem lineFree (hs : I s) : I (Machine.lineFree s) := by
  unfold Machine.lineFree
  split
  · exact hs
  · exact h.strict.delivery (onlyDelivery_trans (t := { s with dlp := { s.dlp with line := none } }) rfl
      (onlyDelivery_arbitrate _)) hs

/-! ## Sectors -/

theorem rereadSector (f : SectorFrame) (r : Run) (hr : s.rsc.run = some r) (hs : I s) :
    I (Machine.rereadSector f r s) := by
  have he : (sectorEvent f s).rsc.run = some r := by
    unfold sectorEvent
    split
    · exact hr
    · rw [healthEvent_rsc]
      exact hr
  have ht : ∀ q : Run, q.owner = r.owner → q.purpose = r.purpose → q.expected = r.expected →
      I (stageSector r.owner f ((rearm (sectorEvent f s)).setRun (some q))) := by
    intro q h1 h2 h3
    have hq : I ((rearm (sectorEvent f s)).setRun (some q)) := by
      refine h.strict.setRun _ (fun x hx => ⟨r, he, ?_⟩) (h.strict.rearm (h.strict.sectorEvent f hs))
      cases hx
      exact ⟨h1, h2, h3⟩
    unfold stageSector
    split
    · exact h.endRun true _ (fun _ _ k => h.strict.rereadEnded trivial k) (h.loosen hq)
    · rename_i hl
      split
      · exact h.endRun true _ (fun _ _ k => h.strict.rereadEnded trivial k) (h.loosen (h.strict.setOverrun hq))
      · rename_i n t hn
        exact h.strict.stagedArrived trivial (h.strict.clearFailures (h.stage (not_le.mp hl) hn hq))
  have hu := ht { r with received := r.received + 1, addressRead := r.addressRead || f.readAddress.isSome } rfl rfl rfl
  unfold Machine.rereadSector
  dsimp only
  split
  · exact h.strict.review hu
  · split
    · unfold completeRun
      refine h.endRun false _ (fun u _ k => ?_) (h.loosen hu)
      split
      · exact h.strict.rereadEnded trivial k
      · exact k
    · exact h.strict.review hu

theorem afterCounted (hs : J s) : I (Machine.afterCounted s) := by
  unfold Machine.afterCounted
  split
  · rename_i hr
    exact h.strict.review (h.tighten hs fun r k => by rw [hr] at k; cases k)
  · rename_i r hr
    split
    · unfold completeRun
      refine h.endRun false _ (fun u _ k => ?_) hs
      split
      · exact h.strict.rereadEnded trivial k
      · exact k
    · exact h.strict.review (h.checkOwnerLane hs)

theorem acceptSector (f : SectorFrame) (r stored : Run) {r₀ : Run} (hr : s.rsc.run = some r₀)
    (hp : r₀.purpose ≠ .reread) (ho : r.owner = r₀.owner) (he : r.expected = r₀.expected)
    (hq : stored.owner = r₀.owner ∧ stored.purpose = r₀.purpose ∧ stored.expected = r₀.expected + 1) (hs : I s) :
    I (Machine.acceptSector f r stored s) := by
  obtain ⟨h1, h2, h3⟩ := hq
  unfold Machine.acceptSector
  dsimp only
  split
  · rename_i hc
    rw [ho, he] at *
    have ht := h.loosen (h.strict.clearFailures (h.store stored (recordOf f) hr hp hc h1 h2 h3 hs))
    refine h.afterCounted ?_
    split
    · exact h.loose.settleTail trivial trivial (h.loose.settleTail trivial trivial ht)
    · exact h.loose.settleTail trivial trivial ht
  · exact h.endRun true id (fun _ _ k => k) (h.loosen (h.strict.dropSector _ hs))

/-- A sector counted in the run's streaks leaves its owner, purpose and expected address. -/
theorem counted (r q : Run) (hr : s.rsc.run = some r) (h1 : q.owner = r.owner) (h2 : q.purpose = r.purpose)
    (h3 : q.expected = r.expected) (hs : I s) : I ((rearm s).setRun (some q)) := by
  refine h.strict.setRun _ (fun x hx => ⟨r, hr, ?_⟩) (h.strict.rearm hs)
  cases hx
  exact ⟨h1, h2, h3⟩

theorem splicePath_ends (x : Zone) (c : SpliceCause) (hs : J s) : K x (Machine.endRun true (splicePath x c) s) :=
  (h.weak x).endRun true _ (h.capture x c (dropRun_run true s) (h.dropRun true hs))

theorem backSlip (r : Run) (hr : s.rsc.run = some r) (hs : I s) : ∃ x, K x (Machine.backSlip r s) := by
  have ht := h.counted r { r with absentStreak := 0, backStreak := r.backStreak + 1, addressRead := true } hr rfl rfl rfl hs
  unfold Machine.backSlip
  dsimp only
  split
  · exact ⟨.a, h.weaken _ ht⟩
  · exact ⟨_, h.splicePath_ends _ _ (h.loosen (h.strict.health _ _ _ ht))⟩

theorem forwardSkip (r : Run) (hs : I s) : I (Machine.forwardSkip r s) :=
  h.endRun true id (fun _ _ k => k) (h.loosen (h.strict.health _ _ _ hs))

theorem absentTrusted (f : SectorFrame) (r : Run) (hr : s.rsc.run = some r) (hp : r.purpose ≠ .reread) (hs : I s) :
    ∃ x, K x (Machine.absentTrusted f r s) := by
  have ht := h.counted r { r with backStreak := 0 } hr rfl rfl rfl hs
  unfold Machine.absentTrusted
  dsimp only
  split
  · exact ⟨.a, h.weaken _ (h.acceptSector f _ _ (r₀ := { r with backStreak := 0 }) rfl hp rfl rfl ⟨rfl, rfl, rfl⟩ ht)⟩
  · exact ⟨_, h.splicePath_ends _ _ (h.loosen ht)⟩

theorem absentUntrusted (r : Run) (hr : s.rsc.run = some r) (hs : I s) : I (Machine.absentUntrusted r s) := by
  have ht := h.counted r { r with absentStreak := r.absentStreak + 1 } hr rfl rfl rfl hs
  unfold Machine.absentUntrusted
  dsimp only
  split
  · exact ht
  · refine h.endRun true _ (fun u hu k => ?_) (h.loosen (h.strict.health _ _ _ ht))
    have hq : q r.owner u.rsc.run := by rw [hu]; exact h.strict.idle _
    exact h.strict.settleTail trivial hq (h.strict.stepOver _ trivial hq k)

theorem addressedSector (f : SectorFrame) (r : Run) (hr : s.rsc.run = some r) (hp : r.purpose ≠ .reread) (hs : I s) :
    ∃ x, K x (Machine.addressedSector f r s) := by
  unfold Machine.addressedSector
  split
  · split
    · have he : (sectorEvent f (rearm s)).rsc.run = some r := by
        unfold sectorEvent
        split
        · exact hr
        · rw [healthEvent_rsc]
          exact hr
      exact ⟨.a, h.weaken _ (h.acceptSector f r _ he hp rfl rfl ⟨rfl, rfl, rfl⟩
        (h.strict.sectorEvent f (h.strict.rearm hs)))⟩
    · split
      · exact h.backSlip r hr hs
      · exact ⟨.a, h.weaken _ (h.forwardSkip r hs)⟩
  · split
    · exact h.absentTrusted f r hr hp hs
    · exact ⟨.a, h.weaken _ (h.absentUntrusted r hr hs)⟩

theorem takeSector (f : SectorFrame) (hs : I s) : ∃ x, K x (Machine.takeSector f s) := by
  unfold Machine.takeSector
  split
  · exact ⟨.a, h.weaken _ hs⟩
  · rename_i r hr
    split
    · exact ⟨.a, h.weaken _ hs⟩
    · split
      · exact ⟨.a, h.weaken _ (h.counted r _ hr rfl rfl rfl hs)⟩
      · split
        · exact ⟨.a, h.weaken _ (h.rereadSector f r hr hs)⟩
        · rename_i hp
          exact h.addressedSector f r hr hp hs

theorem failedRun (halt : Bool) (r : Run) (kind : FailKind) (hs : I s) : I (Machine.endRun halt (failRun r kind) s) :=
  h.endRun halt _ (fun _ _ k => h.strict.failRun r kind trivial k) (h.loosen hs)

theorem runRefused (id : Byte) (hs : I s) : I (Machine.runRefused id s) := by
  unfold Machine.runRefused
  split
  · exact hs
  · split
    · exact h.failedRun false _ _ hs
    · exact hs

theorem searchEnds (hs : I s) : I (Machine.searchEnds s) := by
  unfold Machine.searchEnds
  split
  · exact hs
  · split
    · exact hs
    · rename_i r hr
      split
      · exact h.strict.searchResolves r _ trivial (by rw [hr]; exact Option.some_ne_none r) hs
      · exact hs

/-! ## Marks and the hold -/

theorem skipMark (c : SpliceCause) (hs : I s) : ∃ x, K x (Machine.skipMark c s) := by
  unfold Machine.skipMark
  split
  · exact ⟨.a, h.weaken _ (h.strict.review (h.strict.abortAttempts (fun _ => trivial) (fun _ => trivial) hs))⟩
  · rename_i r hr
    by_cases hp : r.purpose = .reread
    · simp only [hp, if_true]
      exact ⟨.a, h.weaken _ (h.strict.review (h.endRun true _
        (fun _ _ k => h.strict.abortAttempts (fun _ => trivial) (fun _ => trivial) k) (h.loosen hs)))⟩
    · simp only [hp, if_false]
      have ho : ∀ y, holdsStaging y s = true → p r.owner y := by
        intro y hy
        obtain e | e := Zone.eq_or_other r.owner y
        · subst e
          exact (h.flying hr hp hs).resolve_right (by rw [hy]; exact Bool.noConfusion)
        · exact e ▸ h.other r.owner
      exact ⟨r.owner, (h.weak r.owner).review ((h.weak r.owner).endRun true _
        ((h.weak r.owner).abortAttempts (ho .a) (ho .b)
          (h.capture r.owner c (dropRun_run true s) (h.dropRun true (h.loosen hs)))))⟩

theorem takeFocusLost (hs : I s) : ∃ x, K x (Machine.takeFocusLost s) := by
  have hm : I { s with mmn := { s.mmn with focusHeld := false } } := h.outside s.inp s.ttb _ s.pending hs
  obtain ⟨x, hx⟩ := h.skipMark .focus hm
  unfold Machine.takeFocusLost
  dsimp only
  split
  · exact ⟨x, (h.weak x).discReport _ _ hx⟩
  · exact ⟨x, hx⟩

theorem takeFocusBack (hs : I s) : I (Machine.takeFocusBack s) := by
  have hm : I { s with mmn := { s.mmn with focusHeld := true } } := h.outside s.inp s.ttb _ s.pending hs
  unfold Machine.takeFocusBack
  dsimp only
  refine h.strict.allowAgain _ (h.strict.clearMechFault ?_)
  split
  · exact hm
  · exact h.strict.discReport _ _ hm

theorem stopReading (hs : I s) : I (Machine.stopReading s) := by
  unfold Machine.stopReading
  split
  · exact h.strict.review (h.strict.keepUncounted hs)
  · exact h.strict.review (h.endRun false _ (fun _ _ k => h.strict.keepUncounted k) (h.loosen hs))

theorem takeTrayHold (hs : I s) : I (Machine.takeTrayHold s) := by
  unfold Machine.takeTrayHold
  split
  · exact h.strict.discReport _ _ (h.stopReading (h.outside s.inp s.ttb _ s.pending hs))
  · exact hs

theorem takeTrayResume (hs : I s) : I (Machine.takeTrayResume s) := by
  unfold Machine.takeTrayResume
  split
  · exact h.strict.allowAgain _ (h.strict.clearMechFault
      (h.strict.discReport _ _ (h.outside s.inp s.ttb _ s.pending hs)))
  · exact h.strict.post _ hs

theorem setDisc (d : DiscState) (hs : I s) : I (Machine.setDisc d s) := h.outside s.inp s.ttb _ s.pending hs

theorem emptyTable (hs : I s) : I (Machine.emptyTable s) := h.outside s.inp _ s.mmn s.pending hs

theorem takeDiscOut (hs : I s) : I (Machine.takeDiscOut s) := by
  unfold Machine.takeDiscOut
  dsimp only
  refine h.strict.discReport _ _ ?_
  split
  · exact h.stopReading (h.outside s.inp s.ttb _ s.pending hs)
  · exact h.outside s.inp s.ttb _ s.pending hs
  · exact hs
  · exact h.setDisc _ hs
  · exact h.setDisc _ (h.emptyTable hs)
  · exact h.emptyTable hs

theorem takeMark (e id : Byte) (hs : I s) : ∃ x, K x (Machine.takeMark e id s) := by
  unfold Machine.takeMark
  split
  · exact h.skipMark _ hs
  · exact h.takeFocusLost hs
  · exact ⟨.a, h.weaken _ (h.takeFocusBack hs)⟩
  · exact ⟨.a, h.weaken _ (h.takeTrayHold hs)⟩
  · exact ⟨.a, h.weaken _ (h.takeTrayResume hs)⟩
  · exact ⟨.a, h.weaken _ (h.takeDiscOut hs)⟩
  · exact ⟨.a, h.weaken _ (h.strict.discReport _ _ hs)⟩
  · exact ⟨.a, h.weaken _ (h.runRefused id hs)⟩
  · exact ⟨.a, h.weaken _ hs⟩

theorem teardownZone (hs : I s) : I (Machine.teardownZone z s) := by
  have ht := h.strict.inOrder (h.strict.flush (z := z) trivial hs).1
  unfold Machine.teardownZone
  dsimp only
  refine h.strict.inOrder (h.strict.ctl _ rfl (Nat.zero_le _) ?_)
  split
  · exact h.strict.ctl _ rfl le_rfl ht
  · exact h.strict.enterIdle _ ht

theorem teardown (hs : I s) : I (Machine.teardown s) := by
  have ht := h.strict.review (h.teardownZone (z := .b) (h.teardownZone (z := .a) hs))
  unfold Machine.teardown
  dsimp only
  generalize Machine.review _ = u at ht ⊢
  exact h.outside (s := { u with sfm := { u.sfm with records := [], recency := [] } }) u.inp u.ttb
    { u.mmn with retained := none } u.pending (h.unmapped ht)

theorem holdExpires (hs : I s) : I (Machine.holdExpires s) := by
  have ht := h.teardown (h.strict.inOrder (h.strict.post (.holdExpired s.mmn.disc) hs))
  unfold Machine.holdExpires
  dsimp only
  refine h.strict.discReport _ _ (h.strict.inOrder (h.outside (s := tableAfterHold s.mmn.disc _) _ _ _ _ ?_))
  unfold tableAfterHold
  split
  · exact ht
  · exact h.emptyTable ht

/-! ## The intake link -/

theorem framingError (kind : Byte) (hs : I s) : I (Machine.framingError kind s) := by
  unfold Machine.framingError
  split
  · exact hs
  · exact h.strict.post _ (h.strict.delivery (t := { s with dlp := { s.dlp with framingError := true } }) rfl hs)

theorem checkFailed (kind : Byte) (hs : I s) : I (Machine.checkFailed kind s) := by
  unfold Machine.checkFailed
  split
  · exact hs
  · exact h.strict.post _ (h.strict.delivery (t := { s with dlp := { s.dlp with checkError := true } }) rfl hs)

theorem enqueueControl (payload : List Byte) (hs : I s) : I (Machine.enqueueControl payload s) := by
  unfold Machine.enqueueControl
  split
  · rename_i hl
    exact h.cmi _ (fun _ => by rw [List.length_append, List.length_singleton]; omega) hs
  · exact h.strict.delivery (t := { s with dlp := { s.dlp with controlOverflow := true } }) rfl hs

theorem handOn (kind : Byte) (payload : List Byte) (hs : I s) : ∃ x, K x (Machine.handOn kind payload s) := by
  unfold Machine.handOn
  split
  · exact h.takeSector _ hs
  · exact h.takeMark _ _ hs
  · exact ⟨.a, h.weaken _ (h.enqueueControl _ hs)⟩
  · exact ⟨.a, h.weaken _ hs⟩

theorem setInp (i : Inp) (hs : I s) : I { s with inp := i } := h.outside i s.ttb s.mmn s.pending hs

theorem takeCharacter (c : Byte) (hs : I s) : ∃ x, K x (Machine.takeCharacter c s) := by
  unfold Machine.takeCharacter
  split
  · exact ⟨.a, h.weaken _ hs⟩
  · split
    · exact ⟨.a, h.weaken _ (h.setInp _ hs)⟩
    · exact ⟨.a, h.weaken _ hs⟩
  · dsimp only
    split
    · exact ⟨.a, h.weaken _ (h.framingError _ (h.setInp _ hs))⟩
    · split
      · unfold frameEnds
        dsimp only
        split
        · exact h.handOn _ _ (h.setInp _ hs)
        · exact ⟨.a, h.weaken _ (h.checkFailed _ (h.setInp _ hs))⟩
      · exact ⟨.a, h.weaken _ (h.setInp _ hs)⟩

theorem badStop (hs : I s) : I (Machine.badStop s) := by
  unfold Machine.badStop
  split
  · exact hs
  · exact h.framingError _ hs
  · exact h.framingError _ (h.setInp _ hs)

theorem leaveAssembly (hs : I s) : I (Machine.leaveAssembly s) := by
  unfold Machine.leaveAssembly
  split
  · exact h.setInp _ hs
  · exact hs

/-! ## Table loads, settings, queries -/

theorem openTable (hs : I s) : I (Machine.openTable s) := by
  unfold Machine.openTable
  split
  · exact h.strict.refuse _ _ hs
  · exact h.strict.discReport _ _ (h.setDisc (s := { s with ttb := _ }) _ (h.outside s.inp _ s.mmn s.pending hs))

theorem addTrack (track start : Nat) (kind : Option TrackKind) (hs : I s) : I (Machine.addTrack track start kind s) := by
  unfold Machine.addTrack
  split
  · exact h.strict.refuse _ _ hs
  · split
    · exact h.strict.refuse _ _ hs
    · split
      · exact h.outside s.inp _ s.mmn s.pending hs
      · exact h.strict.refuse _ _ hs

theorem closeDecision (fp : Nat) (hs : I s) : I (Machine.closeDecision fp s) := by
  unfold Machine.closeDecision
  split
  · exact h.setDisc _ hs
  · split
    · exact h.outside s.inp s.ttb _ s.pending hs
    · unfold discChanged
      have ht := h.teardown (h.strict.inOrder (h.strict.post (.discChanged (s.mmn.retained.getD 0) fp) hs))
      exact h.outside (s := Machine.teardown _) _ _ _ _ ht
  all_goals exact hs

theorem closeTable (count leadOut : Nat) (hs : I s) : I (Machine.closeTable count leadOut s) := by
  unfold Machine.closeTable
  split
  · exact h.strict.refuse _ _ hs
  · split
    · unfold afterClose
      exact h.retryChoice (h.retryChoice (h.strict.allowAgain _ (h.strict.clearMechFault (h.strict.inOrder
        (h.strict.discReport _ _ (h.strict.inOrder (h.closeDecision _ (h.outside s.inp _ s.mmn s.pending hs))))))))
    · exact h.strict.refuse _ _ hs

theorem loadPolicy (state : Byte) (row : PolicyFields) (hs : I s) : I (Machine.loadPolicy state row s) := by
  unfold Machine.loadPolicy
  split
  · exact h.policy _ _ hs
  · exact h.strict.refuse _ _ hs

theorem setCadence (on : Bool) (hs : I s) : I (Machine.setCadence z on s) :=
  h.strict.delivery (t := Machine.setCadence z on s) rfl hs

theorem enableChange (was now : Bool) (hs : I s) : I (Machine.enableChange z was now s) := by
  unfold Machine.enableChange
  split
  · unfold disableZone
    refine h.setCadence false ?_
    split
    · exact hs
    · exact h.strict.enterIdle _ (h.strict.flush trivial hs).1
  · exact h.setCadence true hs
  · exact hs

theorem setupZone (enable priority : Byte) (t l r c f : Nat) (hs : I s) :
    I (Machine.setupZone z enable priority t l r c f s) := by
  unfold Machine.setupZone
  split
  · exact h.strict.review (h.strict.zoneTests trivial (h.enableChange _ _ (h.setup _ _ t l r c f hs)))
  · exact h.strict.refuse _ _ hs

theorem setupMechanism (first next hold : Nat) (hs : I s) : I (Machine.setupMechanism first next hold s) :=
  h.outside s.inp s.ttb { s.mmn with holdLimit := clamp 1 60 hold } s.pending (h.strict.rsc
    { s.rsc with firstLimit := clamp 100 5000 first, nextLimit := clamp 20 1000 next } (continues_refl _) hs)

theorem setupReports (levels : List Byte) (threshold : Byte) (hs : I s) : I (Machine.setupReports levels threshold s) :=
  h.strict.delivery (t := Machine.setupReports levels threshold s) rfl hs

/-! ## Playback and programs -/

theorem playback (code : Byte) (accepts : List ZoneState) (disc : Bool) (body : State → State) (hb : I s → I (body s))
    (hs : I s) : I (Machine.playback code z accepts disc body s) := by
  unfold Machine.playback
  split
  · exact h.strict.refuse _ _ hs
  · exact hb hs

theorem playTests (track offset : Nat) (hs : I s) : I (Machine.playTests z track offset s) := by
  unfold Machine.playTests
  split
  · exact h.strict.refuse _ _ hs
  · split
    · exact h.strict.refuse _ _ hs
    · exact h.strict.clearMechFault (h.strict.cue _ _ _ trivial hs)

theorem stopZone (hs : I s) : I (Machine.stopZone z s) := by
  unfold Machine.stopZone
  split
  · exact h.strict.review (h.stopDone hs)
  · exact h.strict.review (h.stopTest (h.strict.conc _ id (.inr (.inr rfl)) hs))

theorem nextTrack (hs : I s) : I (Machine.nextTrack z s) := by
  unfold Machine.nextTrack
  split
  · exact h.strict.review (h.strict.endProgram trivial hs)
  · exact h.strict.post _ (h.strict.cue _ _ _ trivial (h.strict.consumeOrigin _ hs))

theorem previousTrack (hs : I s) : I (Machine.previousTrack z s) := by
  unfold Machine.previousTrack
  split
  · dsimp only
    split
    · exact h.strict.cue _ _ _ trivial hs
    · exact h.strict.post _ (h.strict.cue _ _ _ trivial hs)
  · exact hs

theorem locate (offset : Int) (hs : I s) : I (Machine.locate z offset s) := by
  unfold Machine.locate
  split
  · exact h.strict.clearMechFault (h.strict.cue _ _ _ trivial hs)
  · exact hs

theorem appendTrack (track : Nat) (hs : I s) : I (Machine.appendTrack z track s) := by
  unfold Machine.appendTrack
  split
  · exact h.strict.refuse _ _ hs
  · split
    · exact h.strict.refuse _ _ hs
    · split
      · exact h.strict.refuse _ _ hs
      · rename_i hl
        refine h.retryChoice (h.program _ ?_ hs)
        rw [List.length_append, List.length_singleton]
        omega

/-- An edit of the program list or the repeat mode leaves the state one in which NEXT may be withdrawn. -/
theorem withdrawEdited (c : ZoneCtl) (h1 : c.setup = (s.ctl z).setup) (h2 : c.program.length ≤ (s.ctl z).program.length)
    (h3 : c.active = (s.ctl z).active) (h4 : c.next = (s.ctl z).next) (hf : fits s) (hs : I s) :
    I (Machine.withdraw z (s.setCtl z c)) := by
  refine h.withdraw (h.fits_of (s := s) rfl (fun y => ?_) hf) (h.strict.ctl c h1 h2 hs)
  rw [State.setCtl_ctl]
  split
  · rename_i e
    subst e
    exact ⟨h3, h4⟩
  · exact ⟨rfl, rfl⟩

theorem removeTrack (position : Nat) (hf : fits s) (hs : I s) : I (Machine.removeTrack z position s) := by
  unfold Machine.removeTrack
  split
  · exact h.strict.refuse _ _ hs
  · exact h.withdrawEdited _ rfl (List.length_eraseIdx_le _ _) rfl rfl hf hs

theorem clearProgram (hf : fits s) (hs : I s) : I (Machine.clearProgram z s) :=
  h.withdrawEdited _ rfl (Nat.zero_le _) rfl rfl hf hs

theorem setRepeat (mode : Option RepeatMode) (hf : fits s) (hs : I s) : I (Machine.setRepeat z mode s) := by
  unfold Machine.setRepeat
  split
  · exact h.strict.refuse _ _ hs
  · split
    · exact hs
    · dsimp only
      split
      · exact h.withdrawEdited _ rfl le_rfl rfl rfl hf hs
      · exact h.retryChoice (h.strict.ctl _ rfl le_rfl hs)

/-! ## Events -/

theorem event {f : State → State} (e : Machine.event f s = .next t) (hs : I s)
    (hf : I (beginEvent s) → ∃ x, K x (f (beginEvent s))) : ∃ x, K x t := by
  obtain ⟨x, hx⟩ := hf (h.strict.delivery (onlyDelivery_beginEvent s) hs)
  cases e
  exact ⟨x, (h.weak x).delivery (onlyDelivery_endEvent _) hx⟩

theorem eventKeeps {f : State → State} (e : Machine.event f s = .next t) (hs : I s) (hf : ∀ u : State, I u → I (f u)) :
    ∃ x, K x t :=
  h.event e hs fun hu => ⟨.a, h.weaken _ (hf _ hu)⟩

theorem frameEvent {f : State → State} (e : Machine.frameEvent f s = .next t) (hs : I s)
    (hf : ∀ u : State, I u → ∃ x, K x (f u)) : ∃ x, K x t := by
  refine h.event e hs fun hb => ?_
  split
  · exact ⟨.a, h.weaken _ hb⟩
  · exact hf _ (h.leaveAssembly hb)

theorem frameEventKeeps {f : State → State} (e : Machine.frameEvent f s = .next t) (hs : I s)
    (hf : ∀ u : State, I u → I (f u)) : ∃ x, K x t :=
  h.frameEvent e hs fun u hu => ⟨.a, h.weaken _ (hf u hu)⟩

/-- A control command's event, its body acting on a state that has the lanes and contexts it began with. -/
theorem command {c : Instr} {code : Byte} {len right : Nat} {body : State → State}
    (e : Machine.event (cmiCarry c (lengthTest code len right body)) s = .next t) (hs : I s)
    (hb : ∀ u : State, u.lane = s.lane → u.ctl = s.ctl → I u → I (body u)) : ∃ x, K x t := by
  refine h.event e hs fun hu => ⟨.a, h.weaken _ ?_⟩
  obtain k | ⟨l, hl, k⟩ := cmiCarry_eq c (lengthTest code len right body) (beginEvent s) <;> rw [k]
  · exact hu
  · have hc : I { beginEvent s with cmi := l } := h.cmi l (fun hm => hl.trans hm) hu
    unfold lengthTest
    split
    · exact hb _ (beginEvent_lane s) (beginEvent_ctl s) hc
    · exact h.strict.refuse _ _ hc

theorem carryOut {c : Instr} {len right : Nat} {body : State → State} (e : Machine.carryOut c len right body s = .next t)
    (hs : I s) (hb : ∀ u : State, I u → I (body u)) : ∃ x, K x t :=
  h.command e hs fun u _ _ hu => hb u hu

theorem carryOutEdit {c : Instr} {len right : Nat} {zone : Byte} {body : Zone → State → State}
    (e : Machine.carryOutZone c len right zone body s = .next t) (hf : fits s) (hs : I s)
    (hb : ∀ (z : Zone) (u : State), fits u → I u → I (body z u)) : ∃ x, K x t := by
  refine h.command e hs fun u hl hc hu => ?_
  unfold zoneTest
  split
  · exact hb _ u (h.fits_of hl (fun z => by rw [hc]; exact ⟨rfl, rfl⟩) hf) hu
  · exact h.strict.refuse _ _ hu

theorem carryOutZone {c : Instr} {len right : Nat} {zone : Byte} {body : Zone → State → State}
    (e : Machine.carryOutZone c len right zone body s = .next t) (hs : I s)
    (hb : ∀ (z : Zone) (u : State), I u → I (body z u)) : ∃ x, K x t := by
  refine h.command e hs fun u _ _ hu => ?_
  unfold zoneTest
  split
  · exact hb _ u hu
  · exact h.strict.refuse _ _ hu

omit h in
/-- A command that may withdraw an armed NEXT (06 R109, R110). -/
def edits (c : Instr) : Prop := ∃ n zone x, c = .programRemove n zone x ∨ c = .programClear n zone ∨ c = .repeatMode n zone x

/-- A command keeps the law (one case for each). -/
theorem exec {c : Instr} (hf : edits c → fits s) (hs : I s) (e : Machine.exec c s = .next t) : ∃ x, K x t := by
  cases c with
  | powerOn =>
    change execPowerOn s = .next t at e
    unfold execPowerOn at e
    exact h.eventKeeps e hs fun _ hu => h.powerOn hu
  | lineBreak =>
    change execLineBreak s = .next t at e
    unfold execLineBreak at e
    refine h.eventKeeps e hs fun u hu => ?_
    split
    · exact hu
    · exact h.linkReset hu
  | lineIdle =>
    change execLineIdle s = .next t at e
    unfold execLineIdle at e
    refine h.eventKeeps e hs fun u hu => ?_
    split
    · exact h.setInp _ hu
    · exact hu
  | badStopBit =>
    change execBadStopBit s = .next t at e
    unfold execBadStopBit at e
    exact h.eventKeeps e hs fun _ hu => h.badStop hu
  | headerTestFailed kind => exact h.frameEventKeeps e hs fun _ hu => h.framingError kind hu
  | checkError kind => exact h.frameEventKeeps e hs fun _ hu => h.checkFailed kind hu
  | unknownKindFrame kind => exact h.frameEventKeeps e hs fun _ hu => hu
  | sector f => exact h.frameEvent e hs fun _ hu => h.takeSector f hu
  | stallTimerExpiry =>
    change execStallTimerExpiry s = .next t at e
    unfold execStallTimerExpiry at e
    refine h.eventKeeps e hs fun u hu => ?_
    split
    · exact h.failedRun true _ _ hu
    · exact hu
  | searchDone =>
    change execSearchDone s = .next t at e
    unfold execSearchDone at e
    exact h.eventKeeps e hs fun _ hu => h.searchEnds hu
  | frameDue z =>
    change execFrameDue z s = .next t at e
    unfold execFrameDue at e
    exact h.eventKeeps e hs fun _ hu => h.frameDue hu
  | lineFallsFree =>
    change execLineFallsFree s = .next t at e
    unfold execLineFallsFree at e
    exact h.eventKeeps e hs fun _ hu => h.lineFree hu
  | shock => exact h.frameEvent e hs fun _ hu => h.skipMark .shock hu
  | focusLost => exact h.frameEvent e hs fun _ hu => h.takeFocusLost hu
  | focusBack => exact h.frameEventKeeps e hs fun _ hu => h.takeFocusBack hu
  | trayHold => exact h.frameEventKeeps e hs fun _ hu => h.takeTrayHold hu
  | trayResume => exact h.frameEventKeeps e hs fun _ hu => h.takeTrayResume hu
  | discOut => exact h.frameEventKeeps e hs fun _ hu => h.takeDiscOut hu
  | discIn => exact h.frameEventKeeps e hs fun _ hu => h.strict.discReport _ _ hu
  | runRefused id => exact h.frameEventKeeps e hs fun _ hu => h.runRefused id hu
  | unknownMark _ => exact h.frameEventKeeps e hs fun _ hu => hu
  | holdTimerExpiry =>
    change execHoldTimerExpiry s = .next t at e
    unfold execHoldTimerExpiry at e
    refine h.eventKeeps e hs fun u hu => ?_
    split
    · exact h.holdExpires hu
    · exact hu
  | controlFrame payload => exact h.frameEventKeeps e hs fun _ hu => h.enqueueControl payload hu
  | tableOpen len => exact h.carryOut e hs fun _ hu => h.openTable hu
  | trackEntry len track start kind => exact h.carryOut e hs fun _ hu => h.addTrack _ _ _ hu
  | tableClose len count leadOut => exact h.carryOut e hs fun _ hu => h.closeTable _ _ hu
  | policyLoad len state row => exact h.carryOut e hs fun _ hu => h.loadPolicy _ _ hu
  | zoneSetup len zone enable priority target low resume critical fade =>
    exact h.carryOutZone e hs fun _ _ hu => h.setupZone _ _ _ _ _ _ _ hu
  | mechanismSetup len first next hold => exact h.carryOut e hs fun _ hu => h.setupMechanism _ _ _ hu
  | reportSetup len levels threshold => exact h.carryOut e hs fun _ hu => h.setupReports _ _ hu
  | statusQuery len => exact h.carryOut e hs fun _ hu => h.strict.placeReport _ hu
  | mapQuery len start => exact h.carryOut e hs fun _ hu => h.strict.placeReport _ hu
  | softReset len => exact h.carryOut e hs fun _ hu => h.softReset hu
  | play len zone track offset =>
    exact h.carryOutZone e hs fun _ _ hu => h.playback _ _ _ _ (fun k => h.playTests _ _ k) hu
  | pause len zone =>
    exact h.carryOutZone e hs fun _ _ hu => h.playback _ _ _ _ (fun k => h.strict.review (h.strict.enterState _ _ k)) hu
  | resume len zone =>
    exact h.carryOutZone e hs fun _ _ hu => h.playback _ _ _ _
      (fun hu => h.strict.clearMechFault (h.strict.review (h.strict.enterState _ _ hu))) hu
  | stop len zone => exact h.carryOutZone e hs fun _ _ hu => h.playback _ _ _ _ (fun k => h.stopZone k) hu
  | next len zone => exact h.carryOutZone e hs fun _ _ hu => h.playback _ _ _ _ (fun k => h.nextTrack k) hu
  | previous len zone => exact h.carryOutZone e hs fun _ _ hu => h.playback _ _ _ _ (fun k => h.previousTrack k) hu
  | locate len zone offset => exact h.carryOutZone e hs fun _ _ hu => h.playback _ _ _ _ (fun k => h.locate _ k) hu
  | programAppend len zone track => exact h.carryOutZone e hs fun _ _ hu => h.appendTrack _ hu
  | programRemove len zone position =>
    exact h.carryOutEdit e (hf ⟨len, zone, position, .inl rfl⟩) hs fun _ _ k hu => h.removeTrack _ k hu
  | programClear len zone =>
    exact h.carryOutEdit e (hf ⟨len, zone, zone, .inr (.inl rfl)⟩) hs fun _ _ k hu => h.clearProgram k hu
  | repeatMode len zone mode =>
    exact h.carryOutEdit e (hf ⟨len, zone, mode, .inr (.inr rfl)⟩) hs fun _ _ k hu => h.setRepeat _ k hu
  | intakeCharacter c =>
    change execIntakeCharacter c s = .next t at e
    unfold execIntakeCharacter at e
    exact h.event e hs fun hu => h.takeCharacter c hu
  | unknownCommandCode len code =>
    change execUnknownCommandCode len code s = .next t at e
    unfold execUnknownCommandCode at e
    refine h.eventKeeps e hs fun u hu => ?_
    obtain k | ⟨l, hl, k⟩ := cmiCarry_eq (.unknownCommandCode len code) (refuse code .badField) u <;> rw [k]
    · exact hu
    · exact h.strict.refuse _ _ (h.cmi l (fun hm => hl.trans hm) hu)

/-- A step keeps the law. -/
theorem step (hf : ∀ c, s.pending.head? = some c → edits c → fits s) (hs : I s) (e : Machine.step s = .next t) :
    ∃ x, K x t := by
  unfold Machine.step at e
  split at e
  · cases e
    exact ⟨.a, h.weaken _ hs⟩
  · rename_i c rest hp
    refine h.exec (s := { s with pending := rest }) (fun hc => ?_) (h.outside s.inp s.ttb s.mmn rest hs) e
    exact h.fits_of (s := s) rfl (fun _ => ⟨rfl, rfl⟩) (hf c (by rw [hp]; rfl) hc)

end Law
end Sys2Proof.Safety
end

-- ==== Invariants: properties that look at neither runs nor tails ====
section
/-! SUPPORT. A property that looks neither at the outstanding run nor at a lane's tail, pending seam or counts is a `Law` as it
stands: it has no moment at which it fails. -/

namespace Sys2Proof.Safety

open Sys2Proof.Machine

/-- A property that the primitive changes of the state keep, whatever the run and the lanes' own fields are. -/
structure Plain (I : State → Prop) : Prop where
  delivery : ∀ {s t : State}, onlyDelivery s t → I s → I t
  rsc : ∀ {s : State} (r : Rsc), I s → I { s with rsc := r }
  lane : ∀ {s : State} {z : Zone} (l : Lane), l.entries = (s.lane z).entries → I s → I (s.setLane z l)
  splice : ∀ {s : State} {z : Zone} (r : Option SpliceRec), I s → I (s.setSplice z r)
  search : ∀ {s : State} (x : Option Search), I s → I { s with spl := { s.spl with search := x } }
  ctl : ∀ {s : State} {z : Zone} (c : ZoneCtl), c.setup = (s.ctl z).setup →
    c.program.length ≤ (s.ctl z).program.length → I s → I (s.setCtl z c)
  conc : ∀ {s : State} {z : Zone} (c : Cne), ((s.conc z).gain ≤ 256 → c.gain ≤ 256) →
    (c.target = 0 ∨ c.target = 256 ∨ c.target = (s.conc z).target) → I s → I (s.setConc z c)
  health : ∀ {s : State} (g : Nat) (c : Int) (k : SurfaceCause), I s → I (healthEvent g c k s)
  flushStaging : ∀ {s : State}, I s → I (flushStaging s)
  remove : ∀ {s : State} {z : Zone}, I s → I (removeTail z s)
  take : ∀ {s : State} {z : Zone}, I s → I (takePair z s)
  join : ∀ {s : State} {z : Zone} (k : Nat) (slots : List Nat) (a offset : Nat) (seam : Seam),
    slots <+: s.spl.staging.drop k → I s → I (joinedStore z k slots a offset seam s)
  store : ∀ {s : State} {x : Zone} (rec : Sector) (a : Nat), canStore x s = true → I s → I (storeSector x rec a s)
  stage : ∀ {s t : State} {rec : Sector} {n : Nat}, s.spl.staging.length < 12 → takeSlot rec s = some (n, t) → I s →
    I (holdSlot n { t with spl := { t.spl with staging := t.spl.staging ++ [n] } })
  program : ∀ {s : State} {z : Zone} (l : List Nat), l.length ≤ 32 → I s → I (setProgram z l s)
  setup : ∀ {s : State} {z : Zone} (e : Bool) (k : Priority) (t l r c f : Nat), I s →
    I (s.setCtl z { s.ctl z with setup := setupOf e k t l r c f (s.ctl z.other).setup.target })
  outside : ∀ {s : State} (i : Inp) (b : Ttb) (m : Mmn) (l : List Instr), I s →
    I { s with inp := i, ttb := b, mmn := m, pending := l }
  cmi : ∀ {s : State} (l : List (List Byte)), (s.cmi.length ≤ 4 → l.length ≤ 4) → I s → I { s with cmi := l }
  policy : ∀ {s : State} (st : SurfaceState) (f : PolicyFields), I s → I { s with sfm := s.sfm.setRow st (policyOf f) }
  unmapped : ∀ {s : State}, I s → I { s with sfm := { s.sfm with records := [], recency := [] } }
  powerOn : ∀ {s : State}, I s → I { State.reset with sst := s.sst.cleared, free := s.free, pending := s.pending }
  linkReset : ∀ {s : State}, I s → I (linkReset s)
  softReset : ∀ {s : State}, I s → I (softReset s)

namespace Plain

variable {I : State → Prop} (h : Plain I) {s : State} {z : Zone}
include h

theorem issueRun (hs : I s) : I (Machine.issueRun z s) := by
  have hr := h.rsc
    { s.rsc with run := some (newRun z s), nextId := (s.rsc.nextId + 1) % 16, stall := some s.rsc.firstLimit } hs
  have lanes : ∀ u : State, I u → I ((u.setLane .a (u.lane .a).runIssued).setLane .b (u.lane .b).runIssued) :=
    fun u hu => h.lane _ rfl (h.lane _ rfl hu)
  have ht := h.splice (z := z) ((s.splice z).map rereadIssued) (lanes _ hr)
  refine h.delivery ?_ ht
  rfl

theorem spliced : Spliced (fun _ => True) I where
  delivery := h.delivery
  rsc r _ := h.rsc r
  issue _ _ hs := h.issueRun (h.rsc _ hs)
  discard _ := h.splice none
  flushStaging := h.flushStaging

theorem removeTails (n : Nat) (hs : I s) : I (Machine.removeTails n z s) := by
  induction n generalizing s with
  | zero => exact hs
  | succ n ih => exact ih (h.remove hs)

theorem flushLane (hs : I s) : I (Machine.flushLane z s) := h.lane _ rfl (h.removeTails _ hs)

theorem trimLane (track stop : Nat) (hs : I s) : I (Machine.trimLane z track stop s) := h.lane _ rfl (h.removeTails _ hs)

theorem handOver (hs : I s) : I (Machine.handOver z s) := by
  unfold Machine.handOver
  split
  · exact hs
  · split
    · split
      · exact h.rsc _ hs
      · exact h.spliced.cutRun hs
    · exact hs

theorem flushWith (hs : I s) : I (Machine.flushWith z s) :=
  h.spliced.review (h.handOver (h.spliced.abandonSplice trivial (h.flushLane hs)))

theorem rewindEntry (e : Entry) (hs : I s) : I (Machine.rewindEntry z e s) := h.lane _ rfl (h.remove hs)

theorem rewindLoop (n : Nat) (x : Zone) (px py : Bool) (hs : I s) : I (Machine.rewindLoop n x px py s) := by
  induction n generalizing s px py with
  | zero => exact hs
  | succ n ih =>
    unfold Machine.rewindLoop
    split
    · exact hs
    · split
      · exact hs
      · dsimp only
        split
        · split
          · split
            · exact hs
            · exact ih _ _ (h.rewindEntry _ (h.rewindEntry _ hs))
          · exact ih _ _ (h.rewindEntry _ hs)
        · exact ih _ _ (h.rewindEntry _ hs)

/-- A plain property is kept for every zone, whatever the outstanding run. -/
theorem closed : Closed (fun _ => True) (fun _ _ => True) I where
  toSpliced := h.spliced
  idle _ := trivial
  spliced _ _ := trivial
  ctl := h.ctl
  conc := h.conc
  health := h.health
  search := h.search
  replace r _ := h.splice (some r)
  convert _ _ _ _ _ := h.rsc _
  armed _ _ _ := h.lane _ rfl
  readOver _ _ _ := h.lane _ rfl
  unbound := h.lane _ rfl
  stepOver _ _ _ := h.lane _ rfl
  cued _ _ _ _ _ := h.lane _ rfl
  flush _ hs := ⟨h.flushWith hs, trivial⟩
  take := h.take
  join k slots a o m _ _ hl _ hs := h.splice none (h.join k slots a o m hl hs)

/-- A plain property is a law that holds at every moment. -/
theorem law : Law (fun _ _ => True) (fun _ _ => True) (fun _ => True) I I (fun _ => I) where
  strict := h.closed
  loose := h.closed
  weak _ := h.closed
  other _ := trivial
  loosen := id
  weaken _ := id
  tighten hs _ := hs
  flying _ _ _ := .inl trivial
  store _ rec _ _ hc _ _ _ hs := h.rsc _ (h.store rec _ hc hs)
  stage := h.stage
  capture x _ _ hs := h.splice (z := x) _ (h.rewindLoop _ x false false hs)
  trim _ _ _ hs := h.trimLane _ _ hs
  fits_of _ _ _ := trivial
  program := h.program
  setup := h.setup
  outside := h.outside
  cmi := h.cmi
  policy := h.policy
  unmapped := h.unmapped
  powerOn := h.powerOn
  linkReset := h.linkReset
  softReset := h.softReset

/-- Every step keeps a plain property. -/
theorem step {t : State} (hs : I s) (e : Machine.step s = .next t) : I t :=
  (h.law.step (fun _ _ _ => trivial) hs e).elim fun _ k => k

end Plain
end Sys2Proof.Safety
end

-- ==== What the store's operations leave ====
section
/-! SUPPORT. An equation for each case of the store's operations, and which parts of the state each of them can reach. -/

namespace Sys2Proof.Safety

open Sys2Proof.Machine

variable {s t : State} {z : Zone}

/-! ## Taking a slot, appending -/

theorem takeSlot_some {rec : Sector} {n : Nat} :
    takeSlot rec s = some (n, t) ↔ ∃ rest, s.sst.free = n :: rest
      ∧ t = { s with sst := { s.sst with free := rest, slots := s.sst.slots.set n ⟨rec, 0⟩ } } := by
  unfold takeSlot
  split
  · rename_i h
    simp [h]
  · rename_i m rest h
    rw [h]
    simp only [Option.some.injEq, Prod.mk.injEq, List.cons.injEq]
    constructor
    · rintro ⟨rfl, rfl⟩
      exact ⟨rest, ⟨rfl, rfl⟩, rfl⟩
    · rintro ⟨_, ⟨rfl, rfl⟩, rfl⟩
      exact ⟨rfl, rfl⟩

@[simp] theorem holdSlot_lane (n : Nat) (s : State) : (holdSlot n s).lane = s.lane := rfl

theorem appendSlot_lane_same (z : Zone) (n a : Nat) (s : State) :
    (appendSlot z n a s).lane z = (s.lane z).append (plainEntry (s.lane z) n a) := by
  unfold appendSlot
  simp

theorem appendSlot_lane_other (z : Zone) (n a : Nat) (s : State) :
    (appendSlot z n a s).lane z.other = s.lane z.other := by
  unfold appendSlot
  simp

/-- A stored sector reaches the store, and OVERRUN with its shown mark (01 R9, R10, R12). -/
theorem storeSector_only (x : Zone) (rec : Sector) (a : Nat) (s : State) :
    storeSector x rec a s = { s with
      sst := (storeSector x rec a s).sst
      dlp := { s.dlp with
        overrun := (storeSector x rec a s).dlp.overrun, overrunShown := (storeSector x rec a s).dlp.overrunShown } } := by
  unfold storeSector
  split
  · rfl
  · rename_i n u hu
    obtain ⟨rest, -, rfl⟩ := takeSlot_some.mp hu
    unfold storedClearsOverrun
    dsimp only
    split <;> split <;> rfl

/-- A stored sector appends to its own lane, and at most one entry to the other (01 R9, R10). -/
theorem storeSector_entries (x y : Zone) (rec : Sector) (a : Nat) (s : State) (h : canStore x s = true)
    (k : (s.lane y).entries.length ≤ 448) : ((storeSector x rec a s).lane y).entries.length ≤ 448 := by
  unfold canStore at h
  simp only [Bool.and_eq_true, decide_eq_true_eq] at h
  unfold storeSector
  split
  · exact k
  · rename_i n u hu
    obtain ⟨rest, -, rfl⟩ := takeSlot_some.mp hu
    generalize hv : ({ s with sst := _ } : State) = v
    have hl : v.lane = s.lane := by subst hv; rfl
    have hc : ∀ w : State, (storedClearsOverrun w).lane = w.lane := by
      intro w
      unfold storedClearsOverrun
      split <;> rfl
    have one : ∀ y, ((appendSlot x n a v).lane y).entries.length ≤ 448 ∨ y ≠ x ∧ (appendSlot x n a v).lane y = s.lane y := by
      intro y
      obtain rfl | rfl := Zone.eq_or_other x y
      · left
        rw [appendSlot_lane_same, hl]
        simp only [Lane.append, List.length_append, List.length_singleton]
        omega
      · right
        rw [appendSlot_lane_other, hl]
        exact ⟨Zone.other_ne x, rfl⟩
    dsimp only
    split
    · rename_i hj
      obtain rfl | rfl := Zone.eq_or_other x y
      · have := appendSlot_lane_other y.other n a (storedClearsOverrun (appendSlot y n a v))
        rw [Zone.other_other] at this
        rw [this, hc]
        exact (one y).resolve_right fun h => h.1 rfl
      · unfold joins at hj
        simp only [Bool.and_eq_true, decide_eq_true_eq] at hj
        rw [appendSlot_lane_same]
        simp only [Lane.append, List.length_append, List.length_singleton]
        omega
    · rw [hc]
      obtain h | ⟨-, h⟩ := one y
      · exact h
      · rw [h]
        exact k

/-! ## Taking a pair -/

/-- The lane with its boundary absent once the boundary entry's first pair is taken (01 R6). -/
def Lane.taken (l : Lane) : Lane := { l with boundary := if atBoundary l then .absent else l.boundary }

theorem takePair_nil (h : (s.lane z).entries = []) : takePair z s = s := by
  unfold takePair
  simp only [h]

theorem takePair_cons {e : Entry} {rest : List Entry} (h : (s.lane z).entries = e :: rest) :
    takePair z s = if 587 ≤ (s.lane z).playPos.getD e.offset
      then dropHold e.slot (s.setLane z (Lane.taken (s.lane z)).dropHead)
      else s.setLane z { Lane.taken (s.lane z) with playPos := some ((s.lane z).playPos.getD e.offset + 1) } := by
  have ht : (if atBoundary (s.lane z) then { s.lane z with boundary := Boundary.absent } else s.lane z)
      = Lane.taken (s.lane z) := by
    unfold Lane.taken
    split <;> rfl
  rw [← ht]
  unfold takePair
  dsimp only
  split
  · rename_i k
    rw [h] at k
    cases k
  · rename_i f rest' k
    rw [h] at k
    cases k
    rfl

theorem Lane.taken_dropHead_entries (l : Lane) : (Lane.taken l).dropHead.entries = l.entries.tail := by
  unfold Lane.dropHead
  split
  · rename_i h
    rw [show (Lane.taken l).entries = l.entries from rfl] at h ⊢
    rw [h]
    rfl
  · rename_i e rest h
    rw [show (Lane.taken l).entries = l.entries from rfl] at h
    rw [h]
    rfl

/-- A taken pair reaches the store alone, and of the lanes only the zone's (01 R6). -/
theorem takePair_only (z : Zone) (s : State) : takePair z s = { s with sst := (takePair z s).sst } := by
  cases h : (s.lane z).entries with
  | nil => rw [takePair_nil h]
  | cons e rest =>
    rw [takePair_cons h]
    split
    · rw [dropHold_only]
      rfl
    · rfl

theorem takePair_lane_other (z : Zone) (s : State) : (takePair z s).lane z.other = s.lane z.other := by
  cases h : (s.lane z).entries with
  | nil => rw [takePair_nil h]
  | cons e rest =>
    rw [takePair_cons h]
    split
    · rw [dropHold_lane, State.setLane_lane_other]
    · rw [State.setLane_lane_other]

/-- A taken pair leaves the lane's entries, or all but the head (01 R6). -/
theorem takePair_entries (z : Zone) (s : State) :
    ((takePair z s).lane z).entries = (s.lane z).entries ∨ ((takePair z s).lane z).entries = (s.lane z).entries.tail := by
  cases h : (s.lane z).entries with
  | nil =>
    left
    rw [takePair_nil h, h]
  | cons e rest =>
    rw [takePair_cons h]
    split
    · right
      rw [dropHold_lane, State.setLane_lane_same, Lane.taken_dropHead_entries, h]
    · left
      rw [State.setLane_lane_same]
      exact h

/-! ## Moving staged sectors -/

/-- Moves reach the zone's lane alone (03 R57). -/
theorem moveStaged_only (z : Zone) (ns : List Nat) (a o : Nat) (m : Seam) (s : State) :
    (moveStaged z ns a o m s).2 = s.setLane z ((moveStaged z ns a o m s).2.lane z) := by
  have refl : ∀ u : State, u = u.setLane z (u.lane z) := by
    intro u
    unfold State.setLane State.lane
    cases z <;> rfl
  induction ns generalizing a o m s with
  | nil => exact refl s
  | cons n ns ih =>
    unfold moveStaged
    split
    · refine (ih (a + 1) 0 .none _).trans ?_
      unfold moveOne
      cases z <;> rfl
    · exact refl s

theorem moveStaged_length (z : Zone) (ns : List Nat) (a o : Nat) (m : Seam) (s : State)
    (h : (s.lane z).entries.length ≤ 448) : ((moveStaged z ns a o m s).2.lane z).entries.length ≤ 448 := by
  induction ns generalizing a o m s with
  | nil => exact h
  | cons n ns ih =>
    unfold moveStaged
    split
    · rename_i k
      refine ih _ _ _ _ ?_
      unfold canMove at k
      simp only [Bool.and_eq_true, decide_eq_true_eq] at k
      unfold moveOne
      rw [State.setLane_lane_same]
      simp only [Lane.append, List.length_append, List.length_singleton]
      omega
    · exact h

/-- A join or UNVERIFIED fallback reaches the store, staging and the search alone. -/
theorem joinedStore_only (z : Zone) (k : Nat) (slots : List Nat) (a o : Nat) (m : Seam) (s : State) :
    joinedStore z k slots a o m s = { s with
      sst := (joinedStore z k slots a o m s).sst, spl := { s.spl with staging := [], search := none } } := by
  unfold joinedStore
  dsimp only
  rw [dropHolds_only, moveStaged_only]
  rfl

theorem joinedStore_lane (z : Zone) (k : Nat) (slots : List Nat) (a o : Nat) (m : Seam) (s : State) :
    (joinedStore z k slots a o m s).lane = (moveStaged z slots a o m s).2.lane := by
  unfold joinedStore
  exact dropHolds_lane _ _

theorem joinedStore_lane_other (z : Zone) (k : Nat) (slots : List Nat) (a o : Nat) (m : Seam) (s : State) :
    (joinedStore z k slots a o m s).lane z.other = s.lane z.other := by
  rw [joinedStore_lane, moveStaged_only, State.setLane_lane_other]

/-! ## Removing from the tail -/

/-- A removal leaves the gain and its target (05 R90). -/
theorem removeTail_gain (z y : Zone) (s : State) :
    ((removeTail z s).conc y).gain = (s.conc y).gain ∧ ((removeTail z s).conc y).target = (s.conc y).target := by
  have hd : ∀ n (u : State), ((dropInterpolation z n u).conc y).gain = (u.conc y).gain
      ∧ ((dropInterpolation z n u).conc y).target = (u.conc y).target := by
    intro n u
    unfold dropInterpolation
    split
    · split
      · rw [State.setConc_conc]
        split
        · rename_i e
          rw [e]
          exact ⟨rfl, rfl⟩
        · exact ⟨rfl, rfl⟩
      · exact ⟨rfl, rfl⟩
    · exact ⟨rfl, rfl⟩
  unfold removeTail
  split
  · exact ⟨rfl, rfl⟩
  · rename_i e _
    have hc : (dropHold e.slot (s.setLane z (s.lane z).dropTail)).conc = s.conc := by
      rw [dropHold_only]
      rfl
    rw [← hc]
    exact hd _ _

end Sys2Proof.Safety
end
-- ==== The bounds, the setups and the gain ====
section
/-! The laws of 01 R4 and R18, 03 R50, 05 R83, 06 R99 and R110, 10 R155 and 11 R163: each is a plain property. -/

namespace Sys2Proof.Safety

open Sys2Proof.Machine

/-! ## Setups -/

theorem setupsLaw_of_setup {s t : State} (h : ∀ z, (t.ctl z).setup = (s.ctl z).setup) (hs : setupsLaw s) : setupsLaw t := by
  unfold setupsLaw both at *
  dsimp only at *
  rw [h, h]
  exact hs

theorem setupsLaw_of_zone {s t : State} (h : t.zone = s.zone) (hs : setupsLaw s) : setupsLaw t :=
  setupsLaw_of_setup (fun z => by unfold State.ctl; rw [h]) hs

theorem setupsLaw_default : setupsLaw State.reset := by
  unfold setupsLaw setupLaw both
  decide

theorem setupLaw_setupOf (e : Bool) (k : Priority) (t l r c f other : Nat) (h : other ≤ 448) :
    setupLaw (setupOf e k t l r c f other) ∧ (setupOf e k t l r c f other).target + other ≤ 488 := by
  unfold setupLaw setupOf clamp
  dsimp only
  omega

theorem setupsLaw_setCtl {s : State} {z : Zone} (e : Bool) (k : Priority) (t l r c f : Nat) (hs : setupsLaw s) :
    setupsLaw (s.setCtl z { s.ctl z with setup := setupOf e k t l r c f (s.ctl z.other).setup.target }) := by
  obtain ⟨⟨ha, hb⟩, hab⟩ := hs
  have ho : setupLaw (s.ctl z.other).setup := by cases z <;> assumption
  obtain ⟨h1, h2⟩ := setupLaw_setupOf e k t l r c f (s.ctl z.other).setup.target ho.2.1
  unfold setupsLaw both
  cases z with
  | a => exact ⟨⟨h1, hb⟩, h2⟩
  | b => exact ⟨⟨ha, h1⟩, by rw [Nat.add_comm]; exact h2⟩

theorem plain_setupsLaw : Plain setupsLaw where
  delivery h := setupsLaw_of_zone h.zone
  rsc _ := setupsLaw_of_zone rfl
  lane _ _ := setupsLaw_of_zone rfl
  splice _ := setupsLaw_of_zone rfl
  search _ := setupsLaw_of_zone rfl
  ctl {s z} c h _ := setupsLaw_of_setup fun y => by
    rw [State.setCtl_ctl]
    split
    · rename_i e
      rw [e, h]
    · rfl
  conc _ _ _ := setupsLaw_of_zone rfl
  health g c k := setupsLaw_of_zone (healthEvent_only g c k _).zone
  flushStaging := setupsLaw_of_zone (by rw [flushStaging_only])
  remove := setupsLaw_of_zone (by rw [(removal_removeTail _ _).rest])
  take := setupsLaw_of_zone (by rw [takePair_only])
  join _ _ _ _ _ _ := setupsLaw_of_zone (by rw [joinedStore_only])
  store _ _ _ := setupsLaw_of_zone (by rw [storeSector_only])
  stage _ h := setupsLaw_of_zone (by obtain ⟨_, -, rfl⟩ := takeSlot_some.mp h; rfl)
  program {s z} l _ := setupsLaw_of_setup fun y => by
    unfold setProgram
    rw [State.setCtl_ctl]
    split
    · rename_i e
      rw [e]
    · rfl
  setup := setupsLaw_setCtl
  outside _ _ _ _ := setupsLaw_of_zone rfl
  cmi _ _ := setupsLaw_of_zone rfl
  policy _ _ := setupsLaw_of_zone rfl
  unmapped := setupsLaw_of_zone rfl
  powerOn _ := setupsLaw_of_zone rfl setupsLaw_default
  linkReset _ := setupsLaw_of_zone (s := State.reset) (by unfold linkReset; rw [post_zone]; rfl) setupsLaw_default
  softReset := setupsLaw_of_setup fun z => by
    unfold softReset
    rw [post_ctl]
    cases z <;> rfl

/-! ## The gain -/

theorem gainLaw_of_gain {s t : State}
    (h : ∀ z, (t.conc z).gain = (s.conc z).gain ∧ (t.conc z).target = (s.conc z).target) (hs : gainLaw s) : gainLaw t := by
  unfold gainLaw both at *
  dsimp only at *
  rw [(h .a).1, (h .a).2, (h .b).1, (h .b).2]
  exact hs

theorem gainLaw_of_cne {s t : State} (h : t.cne = s.cne) (hs : gainLaw s) : gainLaw t :=
  gainLaw_of_gain (fun z => by unfold State.conc; rw [h]; exact ⟨rfl, rfl⟩) hs

theorem gainLaw_silent : gainLaw State.reset := by
  unfold gainLaw both
  decide

theorem gainLaw_setConc {s : State} {z : Zone} (c : Cne) (hg : (s.conc z).gain ≤ 256 → c.gain ≤ 256)
    (ht : c.target = 0 ∨ c.target = 256 ∨ c.target = (s.conc z).target) (hs : gainLaw s) : gainLaw (s.setConc z c) := by
  have h : ∀ y, (s.conc y).gain ≤ 256 ∧ ((s.conc y).target = 0 ∨ (s.conc y).target = 256) := by
    rintro (_ | _)
    · exact hs.1
    · exact hs.2
  have k : ∀ y, ((s.setConc z c).conc y).gain ≤ 256
      ∧ (((s.setConc z c).conc y).target = 0 ∨ ((s.setConc z c).conc y).target = 256) := by
    intro y
    rw [State.setConc_conc]
    split
    · refine ⟨hg (h z).1, ?_⟩
      obtain e | e | e := ht
      · exact .inl e
      · exact .inr e
      · rw [e]
        exact (h z).2
    · exact h y
  exact ⟨k .a, k .b⟩

theorem plain_gainLaw : Plain gainLaw where
  delivery h := gainLaw_of_cne h.cne
  rsc _ := gainLaw_of_cne rfl
  lane _ _ := gainLaw_of_cne rfl
  splice _ := gainLaw_of_cne rfl
  search _ := gainLaw_of_cne rfl
  ctl _ _ _ := gainLaw_of_cne rfl
  conc := gainLaw_setConc
  health g c k := gainLaw_of_cne (healthEvent_only g c k _).cne
  flushStaging := gainLaw_of_cne (by rw [flushStaging_only])
  remove := gainLaw_of_gain fun y => removeTail_gain _ y _
  take := gainLaw_of_cne (by rw [takePair_only])
  join _ _ _ _ _ _ := gainLaw_of_cne (by rw [joinedStore_only])
  store _ _ _ := gainLaw_of_cne (by rw [storeSector_only])
  stage _ h := gainLaw_of_cne (by obtain ⟨_, -, rfl⟩ := takeSlot_some.mp h; rfl)
  program _ _ := gainLaw_of_cne rfl
  setup _ _ _ _ _ _ _ := gainLaw_of_cne rfl
  outside _ _ _ _ := gainLaw_of_cne rfl
  cmi _ _ := gainLaw_of_cne rfl
  policy _ _ := gainLaw_of_cne rfl
  unmapped := gainLaw_of_cne rfl
  powerOn _ := gainLaw_of_cne rfl gainLaw_silent
  linkReset _ := gainLaw_of_cne (s := State.reset) (by unfold linkReset; rw [post_cne]; rfl) gainLaw_silent
  softReset _ := gainLaw_of_cne (s := State.reset) (by unfold softReset; rw [post_cne]; rfl) gainLaw_silent

/-! ## Bounds of the lists -/

/-- The bounds of the lists that hold within a command too; the report queue's holds as a command ends. -/
structure listsBounded (s : State) : Prop where
  entries : ∀ z, (s.lane z).entries.length ≤ 448
  program : ∀ z, (s.ctl z).program.length ≤ 32
  staging : s.spl.staging.length ≤ 12
  cmi     : s.cmi.length ≤ 4

theorem bounded_iff (s : State) : bounded s ↔ listsBounded s ∧ s.dlp.reports.length ≤ 16 := by
  constructor
  · rintro ⟨⟨⟨ha, ka⟩, hb, kb⟩, h1, h2, h3⟩
    exact ⟨⟨by rintro (_ | _) <;> assumption, by rintro (_ | _) <;> assumption, h1, h2⟩, h3⟩
  · rintro ⟨⟨h1, h2, h3, h4⟩, h5⟩
    exact ⟨⟨⟨h1 .a, h2 .a⟩, h1 .b, h2 .b⟩, h3, h4, h5⟩

/-- Lists that are no longer stay within their bounds. -/
theorem listsBounded.of_le {s t : State} (h : listsBounded s)
    (h1 : ∀ z, (t.lane z).entries.length ≤ (s.lane z).entries.length ∨ (t.lane z).entries.length ≤ 448)
    (h2 : ∀ z, (t.ctl z).program.length ≤ (s.ctl z).program.length ∨ (t.ctl z).program.length ≤ 32)
    (h3 : t.spl.staging.length ≤ s.spl.staging.length) (h4 : t.cmi.length ≤ s.cmi.length) : listsBounded t :=
  ⟨fun z => (h1 z).elim (fun k => k.trans (h.entries z)) id, fun z => (h2 z).elim (fun k => k.trans (h.program z)) id,
    h3.trans h.staging, h4.trans h.cmi⟩

theorem listsBounded.of_eq {s t : State} (h : listsBounded s) (h1 : t.lane = s.lane) (h2 : t.ctl = s.ctl)
    (h3 : t.spl.staging = s.spl.staging) (h4 : t.cmi = s.cmi) : listsBounded t :=
  h.of_le (fun z => .inl (by rw [h1])) (fun z => .inl (by rw [h2])) (by rw [h3]) (by rw [h4])

theorem listsBounded.setCtl {s : State} {z : Zone} {c : ZoneCtl} (h : listsBounded s)
    (k : c.program.length ≤ (s.ctl z).program.length ∨ c.program.length ≤ 32) : listsBounded (s.setCtl z c) := by
  refine h.of_le (fun _ => .inl le_rfl) (fun y => ?_) le_rfl le_rfl
  rw [State.setCtl_ctl]
  split
  · rename_i e
    rw [e]
    exact k
  · exact .inl le_rfl

/-- A change of one lane's entries. -/
theorem listsBounded.of_lane {s t : State} (z : Zone) (h : listsBounded s)
    (h1 : (t.lane z).entries.length ≤ (s.lane z).entries.length ∨ (t.lane z).entries.length ≤ 448)
    (ho : t.lane z.other = s.lane z.other) (h2 : t.ctl = s.ctl) (h3 : t.spl.staging.length ≤ s.spl.staging.length)
    (h4 : t.cmi = s.cmi) : listsBounded t := by
  refine h.of_le (fun y => ?_) (fun y => .inl (by rw [h2])) h3 (by rw [h4])
  obtain rfl | rfl := Zone.eq_or_other z y
  · exact h1
  · exact .inl (by rw [ho])

theorem listsBounded_cleared {t : State} (h1 : t.sst.lanes = ⟨Lane.empty, Lane.empty⟩)
    (h2 : ∀ z, (t.ctl z).program.length ≤ 32) (h3 : t.spl = .initial) (h4 : t.cmi = []) : listsBounded t := by
  refine ⟨fun z => ?_, h2, ?_, ?_⟩
  · unfold State.lane
    rw [h1]
    cases z <;> exact Nat.zero_le _
  · rw [h3]
    exact Nat.zero_le _
  · rw [h4]
    exact Nat.zero_le _

theorem plain_listsBounded : Plain listsBounded where
  delivery k h := h.of_eq k.lane k.ctl (by rw [k.spl]) k.cmi
  rsc _ h := h.of_eq rfl rfl rfl rfl
  lane {s z} l k h := h.of_lane z (.inl (by rw [State.setLane_lane_same, k])) (State.setLane_lane_other _ _ _) rfl le_rfl rfl
  splice _ h := h.of_eq rfl rfl rfl rfl
  search _ h := h.of_eq rfl rfl rfl rfl
  ctl _ _ k h := h.setCtl (.inl k)
  conc _ _ _ h := h.of_eq rfl rfl rfl rfl
  health g c k h := h.of_eq (healthEvent_lane g c k _) (healthEvent_ctl g c k _)
    (by rw [(healthEvent_only g c k _).spl]) (healthEvent_only g c k _).cmi
  flushStaging {s} h := by
    refine h.of_le (fun z => .inl ?_) (fun z => .inl ?_) ?_ ?_
    · unfold flushStaging
      exact (congrArg (fun l => (l z).entries.length) (dropHolds_lane s.spl.staging s)).le
    all_goals rw [flushStaging_only]
    · rfl
    · exact Nat.zero_le _
  remove {s z} h := by
    have r := removal_removeTail z s
    refine h.of_lane z (.inl ?_) r.other ?_ ?_ ?_
    · rw [removeTail_entries, List.length_dropLast]
      exact Nat.sub_le _ _
    all_goals rw [r.rest]
    rfl
  take {s z} h := by
    refine h.of_lane z (.inl ?_) (takePair_lane_other z s) ?_ ?_ ?_
    · obtain e | e := takePair_entries z s <;> rw [e]
      rw [List.length_tail]
      exact Nat.sub_le _ _
    all_goals rw [takePair_only]
    rfl
  join {s z} k slots a o m _ h := by
    refine h.of_lane z (.inr ?_) (joinedStore_lane_other z k slots a o m s) ?_ ?_ ?_
    · rw [joinedStore_lane]
      exact moveStaged_length z slots a o m s (h.entries z)
    all_goals rw [joinedStore_only]
    · rfl
    · exact Nat.zero_le _
  store {s x} rec a k h := by
    refine h.of_le (fun y => .inr (storeSector_entries x y rec a s k (h.entries y))) (fun y => .inl ?_) ?_ ?_
    all_goals rw [storeSector_only]
    rfl
  stage {s t rec n} hl k h := by
    obtain ⟨rest, -, rfl⟩ := takeSlot_some.mp k
    refine ⟨h.entries, h.program, ?_, h.cmi⟩
    show (s.spl.staging ++ [n]).length ≤ 12
    rw [List.length_append, List.length_singleton]
    omega
  program l k h := h.setCtl (.inr k)
  setup _ _ _ _ _ _ _ h := h.setCtl (.inl le_rfl)
  outside _ _ _ _ h := h.of_eq rfl rfl rfl rfl
  cmi l k h := ⟨h.entries, h.program, h.staging, k h.cmi⟩
  policy _ _ h := h.of_eq rfl rfl rfl rfl
  unmapped h := h.of_eq rfl rfl rfl rfl
  powerOn _ := listsBounded_cleared rfl (by rintro (_ | _) <;> exact Nat.zero_le _) rfl rfl
  linkReset _ := by
    unfold linkReset
    refine listsBounded_cleared ?_ (fun z => ?_) ?_ ?_
    · rw [post_sst]; rfl
    · rw [post_ctl]; cases z <;> exact Nat.zero_le _
    · rw [post_spl]
    · rw [post_cmi]
  softReset {s} h := by
    unfold softReset
    refine listsBounded_cleared ?_ (fun z => ?_) ?_ ?_
    · rw [post_sst]; rfl
    · rw [post_ctl]
      cases z
      · exact h.program .a
      · exact h.program .b
    · rw [post_spl]
    · rw [post_cmi]

theorem exec_ends (c : Instr) (s : State) : ∃ u, exec c s = .next (endEvent u) := by
  cases c <;> exact ⟨_, rfl⟩

/-- As a step ends, the report queue holds at most 16 (11 R163). -/
theorem step_reports {s t : State} (h : s.dlp.reports.length ≤ 16) (e : step s = .next t) : t.dlp.reports.length ≤ 16 := by
  unfold step at e
  split at e
  · cases e
    exact h
  · rename_i c rest _
    obtain ⟨u, hu⟩ := exec_ends c { s with pending := rest }
    rw [hu] at e
    cases e
    exact endEvent_length u

/-- Settles O56: the bounds, the setups and the gain are plain properties, and the report queue is cut to 16 as a command
ends. -/
theorem stepKeepsBoundsSetupsAndGain : Obligations.StepKeepsBoundsSetupsAndGain := by
  intro s t e
  refine ⟨fun h => ?_, fun h => plain_setupsLaw.step h e, fun h => plain_gainLaw.step h e⟩
  obtain ⟨hl, hr⟩ := (bounded_iff s).mp h
  exact (bounded_iff t).mpr ⟨plain_listsBounded.step hl e, step_reports hr e⟩

end Sys2Proof.Safety
end

-- ==== The law of the pool ====
section
/-! The laws of the store for holders and of the pool (01 R2, R3): a plain property. `Pool` is the law of the counts with a
list of references that are not yet, or no longer, in a lane, so that each operation is followed reference by reference. -/

namespace Sys2Proof.Safety

open Sys2Proof.Machine

variable {s t : State} {z : Zone}

/-! ## Slots -/

theorem setSlot_slot {n m : Nat} {x : Slot} (h : n < s.sst.slots.length) :
    (s.setSlot n x).slot m = if m = n then x else s.slot m := by
  unfold State.setSlot State.slot
  simp only [List.getD_eq_getElem?_getD, List.getElem?_set]
  by_cases e : m = n
  · subst e
    simp [h]
  · rw [if_neg (fun k => e k.symm), if_neg e]

theorem slot_of_slots (h : t.sst.slots = s.sst.slots) : t.slot = s.slot := by
  funext n
  unfold State.slot
  rw [h]

/-! ## What a stored sector leaves -/

/-- The state once the head of the free list has been filled with a record (01 R3). -/
def filled (n : Nat) (rest : List Nat) (rec : Sector) (s : State) : State :=
  { s with sst := { s.sst with free := rest, slots := s.sst.slots.set n ⟨rec, 0⟩ } }

theorem takeSlot_cons {n : Nat} {rest : List Nat} (rec : Sector) (h : s.sst.free = n :: rest) :
    takeSlot rec s = some (n, filled n rest rec s) := takeSlot_some.mpr ⟨rest, h, rfl⟩

theorem filled_slot {n : Nat} {rest : List Nat} {rec : Sector} (h : n < s.sst.slots.length) (m : Nat) :
    (filled n rest rec s).slot m = if m = n then ⟨rec, 0⟩ else s.slot m :=
  setSlot_slot (s := s) h

theorem appendSlot_slot {n a : Nat} (z : Zone) (h : n < s.sst.slots.length) (m : Nat) :
    (appendSlot z n a s).slot m = if m = n then { s.slot n with holders := (s.slot n).holders + 1 } else s.slot m :=
  setSlot_slot (s := s) h

theorem appendSlot_slots_length (z : Zone) (n a : Nat) (s : State) :
    (appendSlot z n a s).sst.slots.length = s.sst.slots.length := by
  unfold appendSlot holdSlot
  simp

theorem storedClearsOverrun_sst (s : State) : (storedClearsOverrun s).sst = s.sst := by
  unfold storedClearsOverrun
  split <;> rfl

theorem storedClearsOverrun_overrun (s : State) (h : s.dlp.overrunShown = true) :
    (storedClearsOverrun s).dlp.overrun = false := by
  unfold storedClearsOverrun
  rw [if_pos h]

theorem storedClearsOverrun_lane (s : State) : (storedClearsOverrun s).lane = s.lane := by
  unfold State.lane
  rw [storedClearsOverrun_sst]

/-- The owner lane's append decides nothing of the other lane's join (01 R10). -/
theorem joins_stored (x : Zone) (n a : Nat) (rest : List Nat) (rec : Sector) (s : State) :
    joins x.other a (storedClearsOverrun (appendSlot x n a (filled n rest rec s))) = joins x.other a s := by
  have hl : (storedClearsOverrun (appendSlot x n a (filled n rest rec s))).lane x.other = s.lane x.other := by
    rw [storedClearsOverrun_lane, appendSlot_lane_other]
    rfl
  have hs : (storedClearsOverrun (appendSlot x n a (filled n rest rec s))).splice = s.splice := by
    unfold storedClearsOverrun
    split <;> rfl
  have hc : (storedClearsOverrun (appendSlot x n a (filled n rest rec s))).ctl = s.ctl := by
    unfold storedClearsOverrun
    split <;> rfl
  unfold joins cover withinTracks
  rw [hl, hs, hc]

/-- The joined lane's entry, where the join conditions hold (01 R10). -/
def Lane.joined (l : Lane) (n a : Nat) (join : Bool) : Lane := if join then l.append (plainEntry l n a) else l

/-- A sector stored in the head of the free list (01 R1, R2, R9, R10, R12). -/
theorem storeSector_cons {n : Nat} {rest : List Nat} (x : Zone) (rec : Sector) (a : Nat) (h : s.sst.free = n :: rest) :
    storeSector x rec a s = if joins x.other a s
      then appendSlot x.other n a (storedClearsOverrun (appendSlot x n a (filled n rest rec s)))
      else storedClearsOverrun (appendSlot x n a (filled n rest rec s)) := by
  unfold storeSector
  simp only [takeSlot_cons rec h, joins_stored]

section
variable {n a : Nat} {rest : List Nat} {x : Zone} {rec : Sector} (h : s.sst.free = n :: rest)
include h

theorem storeSector_free : (storeSector x rec a s).sst.free = rest := by
  rw [storeSector_cons x rec a h]
  split
  · show (storedClearsOverrun _).sst.free = rest
    rw [storedClearsOverrun_sst]
    rfl
  · rw [storedClearsOverrun_sst]
    rfl

theorem storeSector_lane_same :
    (storeSector x rec a s).lane x = (s.lane x).append (plainEntry (s.lane x) n a) := by
  have one : (storedClearsOverrun (appendSlot x n a (filled n rest rec s))).lane x
      = (s.lane x).append (plainEntry (s.lane x) n a) := by
    rw [storedClearsOverrun_lane, appendSlot_lane_same]
    rfl
  rw [storeSector_cons x rec a h]
  split
  · have := appendSlot_lane_other x.other n a (storedClearsOverrun (appendSlot x n a (filled n rest rec s)))
    rw [Zone.other_other] at this
    rw [this, one]
  · exact one

theorem storeSector_lane_other :
    (storeSector x rec a s).lane x.other = Lane.joined (s.lane x.other) n a (joins x.other a s) := by
  have one : (storedClearsOverrun (appendSlot x n a (filled n rest rec s))).lane x.other = s.lane x.other := by
    rw [storedClearsOverrun_lane, appendSlot_lane_other]
    rfl
  rw [storeSector_cons x rec a h]
  unfold Lane.joined
  split
  · rw [appendSlot_lane_same, one]
  · exact one

theorem storeSector_slot (k : n < s.sst.slots.length) (m : Nat) :
    (storeSector x rec a s).slot m = if m = n then ⟨rec, if joins x.other a s then 2 else 1⟩ else s.slot m := by
  have kf : n < (filled n rest rec s).sst.slots.length := by
    unfold filled
    simpa using k
  have one : ∀ m, (storedClearsOverrun (appendSlot x n a (filled n rest rec s))).slot m
      = if m = n then ⟨rec, 1⟩ else s.slot m := by
    intro m
    rw [slot_of_slots (congrArg Sst.slots (storedClearsOverrun_sst _)), appendSlot_slot x kf, filled_slot k, filled_slot k]
    split <;> simp
  rw [storeSector_cons x rec a h]
  split
  · have ks : n < (storedClearsOverrun (appendSlot x n a (filled n rest rec s))).sst.slots.length := by
      rw [storedClearsOverrun_sst]
      unfold appendSlot holdSlot
      simpa using kf
    rw [appendSlot_slot x.other ks, one, one]
    split <;> simp
  · exact one m

theorem storeSector_slots_length : (storeSector x rec a s).sst.slots.length = s.sst.slots.length := by
  have one : (storedClearsOverrun (appendSlot x n a (filled n rest rec s))).sst.slots.length = s.sst.slots.length := by
    rw [storedClearsOverrun_sst, appendSlot_slots_length]
    unfold filled
    simp
  rw [storeSector_cons x rec a h]
  split
  · rw [appendSlot_slots_length, one]
  · exact one

theorem storeSector_overrun (k : s.dlp.overrunShown = true) : (storeSector x rec a s).dlp.overrun = false := by
  rw [storeSector_cons x rec a h]
  split <;> exact storedClearsOverrun_overrun (appendSlot x n a (filled n rest rec s)) k

end

/-! ## What moved sectors leave -/

/-- The entries that moved staged slots become (03 R57, R59). -/
def movedEntries (track : Nat) : List Nat → Nat → Nat → Seam → List Entry
  | [], _, _, _ => []
  | n :: ns, a, offset, seam => ⟨n, a, track, offset, seam⟩ :: movedEntries track ns (a + 1) 0 .none

theorem movedEntries_slots (track : Nat) (ns : List Nat) (a o : Nat) (m : Seam) :
    (movedEntries track ns a o m).map (·.slot) = ns := by
  induction ns generalizing a o m with
  | nil => rfl
  | cons n ns ih => simp [movedEntries, ih]

/-- What moves append: the first of the slots, as many as can be moved, at consecutive addresses, and the tail follows them
(03 R57, R59). -/
theorem moveStaged_spec (z : Zone) (ns : List Nat) (a o : Nat) (m : Seam) (s : State) :
    let r := moveStaged z ns a o m s
    r.1 ≤ ns.length
      ∧ (r.2.lane z).entries = (s.lane z).entries ++ movedEntries ((s.lane z).appending.getD 0) (ns.take r.1) a o m
      ∧ (r.1 = 0 → r.2 = s)
      ∧ (r.1 ≠ 0 → (r.2.lane z).tail = some (a + r.1) ∧ (r.2.lane z).pendingSeam = .none) := by
  induction ns generalizing a o m s with
  | nil => simp [moveStaged, movedEntries]
  | cons n ns ih =>
    unfold moveStaged
    split
    · obtain ⟨h1, h2, h3, h4⟩ := ih (a + 1) 0 .none (moveOne z n a o m s)
      have hl : (moveOne z n a o m s).lane z = (s.lane z).append ⟨n, a, (s.lane z).appending.getD 0, o, m⟩ := by
        unfold moveOne
        rw [State.setLane_lane_same]
      rw [hl] at h2
      generalize moveStaged z ns (a + 1) 0 .none (moveOne z n a o m s) = r at h1 h2 h3 h4
      dsimp only
      refine ⟨Nat.succ_le_succ h1, ?_, fun e => absurd e (Nat.succ_ne_zero _), fun _ => ?_⟩
      · simp only [h2, Lane.append, List.take_succ_cons, movedEntries, List.append_assoc, List.singleton_append]
      · by_cases e : r.1 = 0
        · rw [h3 e, hl, e]
          exact ⟨rfl, rfl⟩
        · obtain ⟨k1, k2⟩ := h4 e
          refine ⟨?_, k2⟩
          rw [k1]
          congr 1
          omega
    · simp [movedEntries]

/-! ## Counting references -/

/-- References to a slot: those of the lanes, and those of a list. -/
def uses (xs : List Nat) (n : Nat) (s : State) : Nat := (laneSlots .a s).count n + (laneSlots .b s).count n + xs.count n

theorem uses_eq (z : Zone) (xs : List Nat) (n : Nat) (s : State) :
    uses xs n s = (laneSlots z s).count n + (laneSlots z.other s).count n + xs.count n := by
  cases z
  · rfl
  · show _ = (laneSlots .b s).count n + (laneSlots .a s).count n + xs.count n
    unfold uses
    omega

/-- The law of the counts, the references being those of the lanes and of a list (01 R2, R3). -/
structure Pool (xs : List Nat) (s : State) : Prop where
  slots   : s.sst.slots.length = 512
  nodup   : s.sst.free.Nodup
  free    : ∀ n, n ∈ s.sst.free ↔ n < 512 ∧ uses xs n s = 0
  holders : ∀ n, n < 512 → (s.slot n).holders = uses xs n s
  range   : ∀ n, 512 ≤ n → uses xs n s = 0

/-- No lane lists a slot twice, nor does the list, which lists none of a lane's (01 R2). -/
structure Distinct (xs : List Nat) (s : State) : Prop where
  lanes : ∀ z, (laneSlots z s).Nodup
  nodup : xs.Nodup
  apart : ∀ n ∈ xs, ∀ z, n ∉ laneSlots z s

theorem poolLaw_iff (s : State) : poolLaw s ↔ Pool s.spl.staging s ∧ Distinct s.spl.staging s := by
  constructor
  · rintro ⟨h1, h2, h3, h4, h5, h6, h7, h8, h9⟩
    refine ⟨⟨h1, h2, h3, h4, h5⟩, ?_, h8, fun n hn => ?_⟩
    · rintro (_ | _) <;> assumption
    · rintro (_ | _)
      · exact (h9 n hn).1
      · exact (h9 n hn).2
  · rintro ⟨⟨h1, h2, h3, h4, h5⟩, h6, h7, h8⟩
    exact ⟨h1, h2, h3, h4, h5, h6 .a, h6 .b, h7, fun n hn => ⟨h8 n hn .a, h8 n hn .b⟩⟩

theorem Pool.of_uses {xs ys : List Nat} (h : Pool xs s) (h1 : t.sst.slots = s.sst.slots) (h2 : t.sst.free = s.sst.free)
    (h3 : ∀ n, uses ys n t = uses xs n s) : Pool ys t := by
  refine ⟨by rw [h1]; exact h.slots, by rw [h2]; exact h.nodup, fun n => ?_, fun n hn => ?_, fun n hn => ?_⟩
  · rw [h2, h3]
    exact h.free n
  · rw [slot_of_slots h1, h3]
    exact h.holders n hn
  · rw [h3]
    exact h.range n hn

theorem laneSlots_of_lane (h : t.lane = s.lane) (z : Zone) : laneSlots z t = laneSlots z s := by
  unfold laneSlots
  rw [h]

theorem uses_of_lane {xs : List Nat} {n : Nat} (h : t.lane = s.lane) : uses xs n t = uses xs n s := by
  unfold uses
  rw [laneSlots_of_lane h, laneSlots_of_lane h]

theorem uses_cons {x n : Nat} {xs : List Nat} : uses (x :: xs) n s = uses xs n s + if n = x then 1 else 0 := by
  unfold uses
  rw [List.count_cons]
  simp only [beq_iff_eq, eq_comm (a := n)]
  omega

/-- A slot that the list refers to is one of the 512, and is not free. -/
theorem Pool.mem {x : Nat} {xs : List Nat} (h : Pool (x :: xs) s) : x < 512 ∧ x ∉ s.sst.free := by
  have hu : uses (x :: xs) x s ≠ 0 := by
    rw [uses_cons, if_pos rfl]
    omega
  refine ⟨?_, fun k => hu ((h.free x).mp k).2⟩
  by_contra hn
  exact hu (h.range x (not_lt.mp hn))

/-- A dropped reference (01 R2). -/
theorem Pool.dropHold {x : Nat} {xs : List Nat} (h : Pool (x :: xs) s) : Pool xs (Machine.dropHold x s) := by
  obtain ⟨hx, hf⟩ := h.mem
  have hl : x < s.sst.slots.length := by rw [h.slots]; exact hx
  have hh : (s.slot x).holders = uses xs x s + 1 := by rw [h.holders x hx, uses_cons, if_pos rfl]
  have hu : ∀ n, uses xs n (Machine.dropHold x s) = uses xs n s := fun n => uses_of_lane (dropHold_lane x s)
  have other : ∀ n, n ≠ x → uses (x :: xs) n s = uses xs n s := fun n hn => by rw [uses_cons, if_neg hn, Nat.add_zero]
  have hc : (Machine.dropHold x s).sst.slots.length = 512 ∧ (∀ n, ((Machine.dropHold x s).slot n).holders
      = if n = x then (s.slot x).holders - 1 else (s.slot n).holders)
      ∧ (Machine.dropHold x s).sst.free = if uses xs x s = 0 then s.sst.free ++ [x] else s.sst.free := by
    unfold Machine.dropHold
    split
    · omega
    · rename_i e
      have e0 : uses xs x s = 0 := by omega
      refine ⟨by simpa [releaseSlot] using h.slots, fun n => ?_, by rw [if_pos e0]; rfl⟩
      show (State.slot (s.setSlot x _) n).holders = _
      rw [setSlot_slot hl]
      split
      · rw [e]
      · rfl
    · rename_i k e
      have e0 : uses xs x s ≠ 0 := by omega
      refine ⟨by simpa using h.slots, fun n => ?_, by rw [if_neg e0]; rfl⟩
      rw [setSlot_slot hl]
      split
      · rw [e]
        rfl
      · rfl
  obtain ⟨c1, c2, c3⟩ := hc
  refine ⟨c1, ?_, fun n => ?_, fun n hn => ?_, fun n hn => ?_⟩
  · rw [c3]
    split
    · exact List.nodup_append.mpr ⟨h.nodup, List.nodup_singleton x, fun a ha b hb => by
        rw [List.mem_singleton.mp hb]
        exact fun e => hf (e ▸ ha)⟩
    · exact h.nodup
  · rw [hu, c3]
    by_cases e : n = x
    · subst e
      by_cases e0 : uses xs n s = 0
      · simp [e0, hx]
      · simp [e0, hf]
    · have k := h.free n
      rw [other n e] at k
      split
      · simp [k, e]
      · exact k
  · rw [hu, c2]
    split
    · rename_i e
      rw [hh, e]
      rfl
    · rename_i e
      rw [h.holders n hn, other n e]
  · rw [hu]
    by_cases e : n = x
    · omega
    · rw [← other n e]
      exact h.range n hn

theorem Pool.dropHolds {ns xs : List Nat} (h : Pool (ns ++ xs) s) : Pool xs (Machine.dropHolds ns s) := by
  induction ns generalizing s with
  | nil => exact h
  | cons n ns ih => exact ih (Pool.dropHold h)

/-- A slot's references in a lane whose entries have changed. -/
theorem uses_setLane {xs ys : List Nat} {l : Lane} {n : Nat}
    (h : (l.entries.map (·.slot)).count n + ys.count n = (laneSlots z s).count n + xs.count n) :
    uses ys n (s.setLane z l) = uses xs n s := by
  have h1 : laneSlots z (s.setLane z l) = l.entries.map (·.slot) := by
    unfold laneSlots
    rw [State.setLane_lane_same]
  have h2 : laneSlots z.other (s.setLane z l) = laneSlots z.other s := by
    unfold laneSlots
    rw [State.setLane_lane_other]
  rw [uses_eq z, uses_eq z, h1, h2]
  omega

theorem Pool.setLane {xs ys : List Nat} {l : Lane} (h : Pool xs s)
    (k : ∀ n, (l.entries.map (·.slot)).count n + ys.count n = (laneSlots z s).count n + xs.count n) :
    Pool ys (s.setLane z l) :=
  h.of_uses rfl rfl fun n => uses_setLane (k n)

/-! ## The law through each operation -/

theorem Distinct.of_sublist {xs ys : List Nat} (h : Distinct xs s) (k : ∀ z, (laneSlots z t).Sublist (laneSlots z s))
    (l : ys.Sublist xs) : Distinct ys t :=
  ⟨fun z => (k z).nodup (h.lanes z), l.nodup h.nodup, fun n hn z hm => h.apart n (l.subset hn) z ((k z).subset hm)⟩

/-- The law looks at the slots, the free list, the lanes' slots and staging alone. -/
theorem poolLaw_of_eq (h : poolLaw s) (h1 : t.sst.slots = s.sst.slots) (h2 : t.sst.free = s.sst.free)
    (h3 : ∀ z, laneSlots z t = laneSlots z s) (h4 : t.spl.staging = s.spl.staging) : poolLaw t := by
  obtain ⟨hp, hd⟩ := (poolLaw_iff s).mp h
  refine (poolLaw_iff t).mpr ⟨?_, ?_⟩ <;> rw [h4]
  · exact hp.of_uses h1 h2 fun n => by unfold uses; rw [h3, h3]
  · exact hd.of_sublist (fun z => by rw [h3]) (List.Sublist.refl _)

theorem poolLaw_of_sst (h : poolLaw s) (h1 : t.sst = s.sst) (h4 : t.spl.staging = s.spl.staging) : poolLaw t :=
  poolLaw_of_eq h (by rw [h1]) (by rw [h1]) (fun z => by unfold laneSlots State.lane; rw [h1]) h4

theorem poolLaw_flushStaging (h : poolLaw s) : poolLaw (flushStaging s) := by
  obtain ⟨hp, hd⟩ := (poolLaw_iff s).mp h
  have hl := dropHolds_lane s.spl.staging s
  refine (poolLaw_iff _).mpr ⟨?_, ?_⟩
  · exact (Pool.dropHolds (xs := []) (by rw [List.append_nil]; exact hp)).of_uses rfl rfl fun n => rfl
  · exact hd.of_sublist (fun z => (laneSlots_of_lane hl z).symm ▸ List.Sublist.refl _) (List.nil_sublist _)

/-- An entry leaves a lane, and its slot loses a holder. -/
theorem poolLaw_leave {e : Entry} {l : Lane} (h : poolLaw s) (hc : (s.lane z).entries.Perm (e :: l.entries))
    (hs : l.entries.Sublist (s.lane z).entries) : poolLaw (dropHold e.slot (s.setLane z l)) := by
  obtain ⟨hp, hd⟩ := (poolLaw_iff s).mp h
  have hst : (dropHold e.slot (s.setLane z l)).spl.staging = s.spl.staging := by rw [dropHold_only]; rfl
  refine (poolLaw_iff _).mpr ⟨?_, ?_⟩ <;> rw [hst]
  · refine Pool.dropHold (hp.setLane fun n => ?_)
    have := (hc.map (·.slot)).count_eq n
    unfold laneSlots
    rw [this, List.map_cons, List.count_cons, List.count_cons]
    omega
  · refine hd.of_sublist (fun y => ?_) (List.Sublist.refl _)
    rw [laneSlots_of_lane (dropHold_lane _ _)]
    unfold laneSlots
    obtain rfl | rfl := Zone.eq_or_other z y
    · rw [State.setLane_lane_same]
      exact hs.map _
    · rw [State.setLane_lane_other]

theorem poolLaw_removeTail (h : poolLaw s) : poolLaw (removeTail z s) := by
  have hi : ∀ n (u : State), poolLaw u → poolLaw (dropInterpolation z n u) := by
    intro n u hu
    unfold dropInterpolation
    split
    · split
      · exact poolLaw_of_sst hu rfl rfl
      · exact hu
    · exact hu
  unfold removeTail
  split
  · exact h
  · rename_i e he
    have hd : (s.lane z).dropTail.entries = (s.lane z).entries.dropLast := by
      unfold Lane.dropTail
      simp only [he]
    refine hi _ _ (poolLaw_leave h ?_ ?_) <;> rw [hd]
    · conv_lhs => rw [← List.dropLast_append_getLast? e he]
      exact List.perm_append_comm
    · exact List.dropLast_sublist _

theorem poolLaw_takePair (h : poolLaw s) : poolLaw (takePair z s) := by
  cases he : (s.lane z).entries with
  | nil =>
    rw [takePair_nil he]
    exact h
  | cons e rest =>
    have hd : (Lane.taken (s.lane z)).dropHead.entries = rest := by rw [Lane.taken_dropHead_entries, he]; rfl
    rw [takePair_cons he]
    split
    · refine poolLaw_leave h ?_ ?_ <;> rw [hd, he]
      exact List.sublist_cons_self e rest
    · refine poolLaw_of_eq h rfl rfl (fun y => ?_) rfl
      unfold laneSlots
      obtain rfl | rfl := Zone.eq_or_other z y
      · rw [State.setLane_lane_same]
        rfl
      · rw [State.setLane_lane_other]

/-- A slot that the free list holds has no reference. -/
theorem poolLaw.fresh {n : Nat} {rest : List Nat} (h : poolLaw s) (hf : s.sst.free = n :: rest) :
    n < 512 ∧ n ∉ s.spl.staging ∧ (∀ z, n ∉ laneSlots z s) ∧ uses s.spl.staging n s = 0 := by
  obtain ⟨hp, -⟩ := (poolLaw_iff s).mp h
  obtain ⟨hn, hu⟩ := (hp.free n).mp (by rw [hf]; exact List.mem_cons_self)
  have k : (laneSlots .a s).count n = 0 ∧ (laneSlots .b s).count n = 0 ∧ s.spl.staging.count n = 0 := by
    unfold uses at hu
    omega
  obtain ⟨ka, kb, ks⟩ := k
  refine ⟨hn, List.count_eq_zero.mp ks, ?_, hu⟩
  rintro (_ | _)
  · exact List.count_eq_zero.mp ka
  · exact List.count_eq_zero.mp kb

/-- A free slot comes to be referred to. -/
theorem Pool.use {xs ys : List Nat} {n : Nat} {rest : List Nat} (h : Pool xs s) (hf : s.sst.free = n :: rest)
    (h1 : t.sst.slots.length = s.sst.slots.length) (h2 : t.sst.free = rest)
    (h3 : ∀ m, m ≠ n → t.slot m = s.slot m ∧ uses ys m t = uses xs m s)
    (h4 : (t.slot n).holders = uses ys n t) (h5 : uses ys n t ≠ 0) : Pool ys t := by
  obtain ⟨hn, -⟩ := (h.free n).mp (by rw [hf]; exact List.mem_cons_self)
  have hd := h.nodup
  rw [hf] at hd
  obtain ⟨hr, hd⟩ := List.nodup_cons.mp hd
  refine ⟨h1.trans h.slots, h2 ▸ hd, fun m => ?_, fun m hm => ?_, fun m hm => ?_⟩
  · rw [h2]
    by_cases e : m = n
    · subst e
      simp [hr, h5]
    · have k := h.free m
      rw [hf, List.mem_cons] at k
      rw [(h3 m e).2, ← k]
      simp [e]
  · by_cases e : m = n
    · rw [e]
      exact h4
    · rw [(h3 m e).1, (h3 m e).2]
      exact h.holders m hm
  · rw [(h3 m (by omega)).2]
    exact h.range m hm

theorem poolLaw_stage {rec : Sector} {n : Nat} (k : takeSlot rec s = some (n, t)) (h : poolLaw s) :
    poolLaw (holdSlot n { t with spl := { t.spl with staging := t.spl.staging ++ [n] } }) := by
  obtain ⟨rest, hf, rfl⟩ := takeSlot_some.mp k
  obtain ⟨hp, hd⟩ := (poolLaw_iff s).mp h
  obtain ⟨hn, hs, hl, hu⟩ := h.fresh hf
  generalize hv : holdSlot n _ = v
  have vs : v.spl.staging = s.spl.staging ++ [n] := by rw [← hv]; rfl
  have vl : v.lane = s.lane := by rw [← hv]; rfl
  have vu : ∀ m, uses (s.spl.staging ++ [n]) m v = uses s.spl.staging m s + if m = n then 1 else 0 := by
    intro m
    rw [uses_of_lane vl, ← uses_cons]
    unfold uses
    rw [(List.perm_append_singleton n s.spl.staging).count_eq]
  have hlen : n < s.sst.slots.length := by rw [hp.slots]; exact hn
  have hlen' : n < (filled n rest rec s).sst.slots.length := by
    unfold filled
    simpa using hlen
  have slot : ∀ m, v.slot m = if m = n then ⟨rec, 1⟩ else s.slot m := by
    intro m
    have e : v.slot m = (appendSlot .a n 0 (filled n rest rec s)).slot m := by rw [← hv]; rfl
    rw [e, appendSlot_slot .a hlen', filled_slot hlen, filled_slot hlen]
    split <;> simp
  refine (poolLaw_iff _).mpr ⟨?_, ?_⟩ <;> rw [vs]
  · refine hp.use hf ?_ (by rw [← hv]; rfl) (fun m hm => ⟨?_, ?_⟩) ?_ ?_
    · rw [← hv]
      unfold holdSlot
      simp
    · rw [slot, if_neg hm]
    · rw [vu, if_neg hm, Nat.add_zero]
    · rw [slot, vu, hu]
      simp
    · rw [vu, if_pos rfl]
      omega
  · refine ⟨fun z => ?_, ?_, fun m hm z => ?_⟩
    · rw [laneSlots_of_lane vl]
      exact hd.lanes z
    · exact (List.perm_append_singleton n _).nodup_iff.mpr (List.nodup_cons.mpr ⟨hs, hd.nodup⟩)
    · rw [laneSlots_of_lane vl]
      obtain hm | hm := List.mem_append.mp hm
      · exact hd.apart m hm z
      · rw [List.mem_singleton.mp hm]
        exact hl z

theorem laneSlots_append (l : Lane) (e : Entry) : (l.append e).entries.map (·.slot) = l.entries.map (·.slot) ++ [e.slot] := by
  unfold Lane.append
  simp

theorem storeSector_laneSlots {x : Zone} {rec : Sector} {a n : Nat} {rest : List Nat} (h : s.sst.free = n :: rest) :
    laneSlots x (storeSector x rec a s) = laneSlots x s ++ [n]
      ∧ laneSlots x.other (storeSector x rec a s) = laneSlots x.other s ++ if joins x.other a s then [n] else [] := by
  unfold laneSlots
  rw [storeSector_lane_same h, storeSector_lane_other h, laneSlots_append]
  refine ⟨rfl, ?_⟩
  unfold Lane.joined
  split
  · rw [laneSlots_append]
    rfl
  · rw [List.append_nil]

theorem poolLaw_store {x : Zone} (rec : Sector) (a : Nat) (k : canStore x s = true) (h : poolLaw s) :
    poolLaw (storeSector x rec a s) := by
  unfold canStore at k
  simp only [Bool.and_eq_true, Bool.not_eq_true', List.isEmpty_eq_false_iff] at k
  obtain ⟨n, rest, hf⟩ := List.exists_cons_of_ne_nil k.2
  obtain ⟨hp, hd⟩ := (poolLaw_iff s).mp h
  obtain ⟨hn, hs, hl, hu⟩ := h.fresh hf
  have hlen : n < s.sst.slots.length := by rw [hp.slots]; exact hn
  obtain ⟨l1, l2⟩ := storeSector_laneSlots (x := x) (rec := rec) (a := a) hf
  have vs : (storeSector x rec a s).spl.staging = s.spl.staging := by rw [storeSector_only]
  have vu : ∀ m, uses s.spl.staging m (storeSector x rec a s)
      = uses s.spl.staging m s + if m = n then (if joins x.other a s then 2 else 1) else 0 := by
    intro m
    rw [uses_eq x, uses_eq x, l1, l2, List.count_append, List.count_append, List.count_singleton]
    by_cases e : m = n
    · subst e
      rw [if_pos rfl]
      by_cases j : joins x.other a s = true
      · rw [if_pos j, if_pos j]
        simp
        omega
      · rw [if_neg j, if_neg j]
        simp
        omega
    · rw [if_neg e]
      have e' : ¬ n = m := fun k => e k.symm
      by_cases j : joins x.other a s = true
      · rw [if_pos j]
        simp [e']
      · rw [if_neg j]
        simp [e']
  refine (poolLaw_iff _).mpr ⟨?_, ?_⟩ <;> rw [vs]
  · refine hp.use hf (storeSector_slots_length hf) (storeSector_free hf) (fun m hm => ⟨?_, ?_⟩) ?_ ?_
    · rw [storeSector_slot hf hlen, if_neg hm]
    · rw [vu, if_neg hm, Nat.add_zero]
    · rw [storeSector_slot hf hlen, vu, hu]
      simp
    · rw [vu, if_pos rfl]
      split <;> omega
  · have fits : ∀ y, (laneSlots y s ++ [n]).Nodup := fun y =>
      (List.perm_append_singleton n _).nodup_iff.mpr (List.nodup_cons.mpr ⟨hl y, hd.lanes y⟩)
    have apart : ∀ m ∈ s.spl.staging, ∀ y, m ∉ laneSlots y s ++ [n] := by
      intro m hm y k
      obtain k | k := List.mem_append.mp k
      · exact hd.apart m hm y k
      · exact hs (List.mem_singleton.mp k ▸ hm)
    have sub : ∀ y, (laneSlots y (storeSector x rec a s)).Sublist (laneSlots y s ++ [n]) := by
      intro y
      obtain rfl | rfl := Zone.eq_or_other x y
      · rw [l1]
      · rw [l2]
        split
        · exact List.Sublist.refl _
        · exact (List.Sublist.refl _).append (List.nil_sublist _)
    exact ⟨fun y => (sub y).nodup (fits y), hd.nodup, fun m hm y k => apart m hm y ((sub y).subset k)⟩

/-- The staged slots are those before the first moved, the moved ones, and those behind them. -/
theorem staged_parts {staged slots : List Nat} {k m : Nat} (h : slots <+: staged.drop k) (hm : m ≤ slots.length) :
    staged.Perm (slots.take m ++ (staged.take k ++ staged.drop (k + m))) := by
  have e : slots.take m = (staged.drop k).take m := by
    obtain ⟨u, hu⟩ := h
    rw [← hu, List.take_append_of_le_length hm]
  rw [e]
  conv_lhs => rw [← List.take_append_drop k staged, ← List.take_append_drop m (staged.drop k), List.drop_drop]
  rw [← List.append_assoc, ← List.append_assoc]
  exact List.perm_append_comm.append_right _

theorem poolLaw_joinedStore (k : Nat) (slots : List Nat) (a o : Nat) (m : Seam) (hk : slots <+: s.spl.staging.drop k)
    (h : poolLaw s) : poolLaw (joinedStore z k slots a o m s) := by
  obtain ⟨hp, hd⟩ := (poolLaw_iff s).mp h
  obtain ⟨h1, h2, -, -⟩ := moveStaged_spec z slots a o m s
  have hparts := staged_parts hk h1
  have hmap : ((moveStaged z slots a o m s).2.lane z).entries.map (·.slot)
      = laneSlots z s ++ slots.take (moveStaged z slots a o m s).1 := by
    rw [h2, List.map_append, movedEntries_slots]
    rfl
  have hst : (joinedStore z k slots a o m s).spl.staging = [] := by rw [joinedStore_only]
  have hlz : laneSlots z (joinedStore z k slots a o m s) = laneSlots z s ++ slots.take (moveStaged z slots a o m s).1 := by
    rw [← hmap]
    unfold laneSlots
    rw [joinedStore_lane]
  have hlo : laneSlots z.other (joinedStore z k slots a o m s) = laneSlots z.other s := by
    unfold laneSlots
    rw [joinedStore_lane_other]
  refine (poolLaw_iff _).mpr ⟨?_, ?_⟩ <;> rw [hst]
  · have hmoved : Pool (s.spl.staging.take k ++ s.spl.staging.drop (k + (moveStaged z slots a o m s).1) ++ [])
        (moveStaged z slots a o m s).2 := by
      rw [moveStaged_only]
      refine hp.setLane fun n => ?_
      simp only [hmap, List.append_nil, hparts.count_eq n, List.count_append]
      omega
    exact (Pool.dropHolds hmoved).of_uses rfl rfl fun n => rfl
  · have hn := hparts.nodup_iff.mp hd.nodup
    refine ⟨fun y => ?_, List.nodup_nil, fun n hn => by cases hn⟩
    obtain rfl | rfl := Zone.eq_or_other z y
    · rw [hlz]
      refine List.nodup_append.mpr ⟨hd.lanes y, (List.nodup_append.mp hn).1, fun x hx w hw e => ?_⟩
      subst e
      exact hd.apart x (hparts.symm.subset (List.mem_append_left _ hw)) y hx
    · rw [hlo]
      exact hd.lanes _

theorem poolLaw_cleared (h : poolLaw s) (h1 : t.sst = s.sst.cleared) (h2 : t.spl = .initial) : poolLaw t := by
  obtain ⟨hp, -⟩ := (poolLaw_iff s).mp h
  have hst : t.spl.staging = [] := by rw [h2]; rfl
  have hl : ∀ z, laneSlots z t = [] := by
    intro z
    unfold laneSlots State.lane
    rw [h1]
    cases z <;> rfl
  have hu : ∀ n, uses [] n t = 0 := fun n => by
    unfold uses
    rw [hl, hl]
    rfl
  refine (poolLaw_iff t).mpr ⟨?_, ?_⟩ <;> rw [hst]
  · refine ⟨?_, ?_, fun n => ?_, fun n hn => ?_, fun n _ => hu n⟩
    · rw [h1]
      unfold Sst.cleared
      rw [List.length_map, hp.slots]
    · rw [h1]
      unfold Sst.cleared
      dsimp only
      exact List.nodup_range
    · rw [h1, hu]
      simp [Sst.cleared]
    · rw [hu]
      unfold State.slot
      rw [h1]
      simp [Sst.cleared, hp.slots, hn]
  · exact ⟨fun z => by rw [hl]; exact List.nodup_nil, List.nodup_nil, fun n hn => by cases hn⟩

theorem plain_poolLaw : Plain poolLaw where
  delivery k h := poolLaw_of_sst h k.sst (by rw [k.spl])
  rsc _ h := poolLaw_of_sst h rfl rfl
  lane {s z} l k h := poolLaw_of_eq h rfl rfl (fun y => by
    unfold laneSlots
    obtain rfl | rfl := Zone.eq_or_other z y
    · rw [State.setLane_lane_same, k]
    · rw [State.setLane_lane_other]) rfl
  splice _ h := poolLaw_of_sst h rfl rfl
  search _ h := poolLaw_of_sst h rfl rfl
  ctl _ _ _ h := poolLaw_of_sst h rfl rfl
  conc _ _ _ h := poolLaw_of_sst h rfl rfl
  health g c k h := poolLaw_of_sst h (healthEvent_only g c k _).sst (by rw [(healthEvent_only g c k _).spl])
  flushStaging := poolLaw_flushStaging
  remove := poolLaw_removeTail
  take := poolLaw_takePair
  join := poolLaw_joinedStore
  store := poolLaw_store
  stage _ := poolLaw_stage
  program _ _ h := poolLaw_of_sst h rfl rfl
  setup _ _ _ _ _ _ _ h := poolLaw_of_sst h rfl rfl
  outside _ _ _ _ h := poolLaw_of_sst h rfl rfl
  cmi _ _ h := poolLaw_of_sst h rfl rfl
  policy _ _ h := poolLaw_of_sst h rfl rfl
  unmapped h := poolLaw_of_sst h rfl rfl
  powerOn h := poolLaw_cleared h rfl rfl
  linkReset h := poolLaw_cleared h (by unfold linkReset; rw [post_sst]) (by unfold linkReset; rw [post_spl])
  softReset h := poolLaw_cleared h (by unfold softReset; rw [post_sst]) (by unfold softReset; rw [post_spl])

end Sys2Proof.Safety
end

-- ==== The law of lane order ====
section
/-! SUPPORT. The law of lane order (01 R5) and what keeps it: the tail address that the last entry gives (R8), the run that
reads its owner lane there (02 R26, R32), and the splices (03 R44, R57). -/

namespace Sys2Proof.Safety

open Sys2Proof.Machine

variable {s t : State} {z : Zone}

/-! ## One lane -/

/-- An entry with no seam is at the address after the one before it (01 R5). -/
def follows (e f : Entry) : Prop := f.seam = .none → f.address = e.address + 1

/-- A seam of no splice. -/
def plainSeam (m : Seam) : Prop := m ∈ [Seam.none, .track, .gap]

theorem plainSeam_iff (m : Seam) : plainSeam m ↔ m = .none ∨ m = .track ∨ m = .gap := by
  unfold plainSeam
  simp

/-- A lane in order, the other lane listing the given slots. -/
structure Laid (l : Lane) (others : List Nat) : Prop where
  order   : l.entries.IsChain follows
  pending : plainSeam l.pendingSeam
  shared  : ∀ e ∈ l.entries, e.slot ∈ others → plainSeam e.seam

/-- While no seam is pending, the tail address follows the last entry. -/
def Told (l : Lane) : Prop := l.pendingSeam = .none → ∀ e, l.entries.getLast? = some e → l.tail = some (e.address + 1)

theorem Laid.of_others {l : Lane} {xs ys : List Nat} (h : Laid l xs) (k : ∀ n ∈ ys, n ∈ xs) : Laid l ys :=
  ⟨h.order, h.pending, fun e he hn => h.shared e he (k _ hn)⟩

theorem laid_empty (others : List Nat) : Laid Lane.empty others :=
  ⟨.nil, (plainSeam_iff _).mpr (.inl rfl), fun _ he => by cases he⟩

theorem told_empty : Told Lane.empty := fun _ _ h => by cases h

/-- An append at the tail address (01 R8, R9): the law goes on, whatever the other lane lists. -/
theorem Laid.append {l : Lane} {n a : Nat} {others ys : List Nat} (h : Laid l others) (k : Told l) (ht : l.tail = some a)
    (hy : ∀ m ∈ ys, m ∈ others ∨ m = n) (hn : n ∉ l.entries.map (·.slot)) : Laid (l.append (plainEntry l n a)) ys := by
  refine ⟨?_, (plainSeam_iff _).mpr (.inl rfl), fun e he hm => ?_⟩
  · refine List.isChain_append.mpr ⟨h.order, .singleton _, fun e he f hf => ?_⟩
    cases hf
    intro hs
    have := k hs e he
    rw [ht] at this
    exact Option.some.inj this
  · obtain he | he := List.mem_append.mp he
    · exact h.shared e he ((hy _ hm).resolve_right fun k => hn (k ▸ List.mem_map_of_mem he))
    · rw [List.mem_singleton.mp he]
      exact h.pending

theorem told_append (l : Lane) (n a : Nat) : Told (l.append (plainEntry l n a)) := by
  intro _ e he
  unfold Lane.append at he
  rw [List.getLast?_append_of_ne_nil _ (List.cons_ne_nil _ _)] at he
  cases he
  rfl

/-! ## The law, and which parts of it a moment holds -/

/-- The law of lane order, of the moments at which the tail is told of the zones in `d` (which looks at whether the zone has
no splice), and at which the run stands at the tail of the zones in `c`. -/
structure LaneOrder (d : Zone → Bool → Prop) (c : Zone → Prop) (s : State) : Prop where
  pool  : poolLaw s
  laid  : ∀ z, Laid (s.lane z) (laneSlots z.other s)
  told  : ∀ z, d z (s.splice z).isNone → Told (s.lane z)
  count : ∀ z r, s.rsc.run = some r → s.splice z ≠ none → (s.lane z).runCount = 0
  owner : ∀ r, s.rsc.run = some r → r.purpose ≠ .reread → s.splice r.owner = none
  tail  : ∀ r, s.rsc.run = some r → r.purpose ≠ .reread → c r.owner → (s.lane r.owner).tail = some r.expected

/-- Every tail is told of. -/
def everTold (_ : Zone) (_ : Bool) : Prop := True

/-- A zone's tail is told of once it has no splice. -/
def toldUnspliced (x z : Zone) (unspliced : Bool) : Prop := z = x → unspliced = true

/-- A zone's tail is not told of. -/
def toldBut (x z : Zone) (_ : Bool) : Prop := z ≠ x

theorem laneLaw_iff (s : State) : poolLaw s ∧ laneLaw s ↔
    LaneOrder (fun _ unspliced => unspliced = true) (fun _ => True) s := by
  have chain : ∀ l : List Entry, (∀ i e f, l[i]? = some e → l[i + 1]? = some f → f.seam = .none →
      f.address = e.address + 1) ↔ l.IsChain follows := by
    intro l
    rw [List.isChain_iff_getElem]
    constructor
    · intro h i hi
      exact h i _ _ (List.getElem?_eq_getElem (by omega)) (List.getElem?_eq_getElem hi)
    · intro h i e f he hf
      obtain ⟨hi, rfl⟩ := List.getElem?_eq_some_iff.mp hf
      obtain ⟨hi', rfl⟩ := List.getElem?_eq_some_iff.mp he
      exact h i hi
  have both_iff : ∀ p : Zone → Prop, both p ↔ ∀ z, p z := by
    intro p
    constructor
    · rintro ⟨ha, hb⟩ (_ | _)
      · exact ha
      · exact hb
    · exact fun h => ⟨h .a, h .b⟩
  unfold laneLaw
  rw [both_iff]
  constructor
  · rintro ⟨hp, hz, hr⟩
    refine ⟨hp, fun z => ?_, fun z hs => ?_, fun z => (hz z).2.2.2.1, fun r h k => (hr r h k).2, fun r h k _ => (hr r h k).1⟩
    · obtain ⟨order, pending, -, -, shared⟩ := hz z
      exact ⟨(chain _).mp order, pending, shared⟩
    · obtain ⟨-, -, told, -, -⟩ := hz z
      exact fun hm => told hm (Option.isNone_iff_eq_none.mp hs)
  · intro h
    refine ⟨h.pool, fun z => ⟨(chain _).mpr (h.laid z).order, (h.laid z).pending, fun hm hs => ?_, h.count z,
      (h.laid z).shared⟩, fun r hr hp => ⟨h.tail r hr hp trivial, h.owner r hr hp⟩⟩
    exact h.told z (by rw [hs]; rfl) hm

namespace LaneOrder

variable {d d' : Zone → Bool → Prop} {c c' : Zone → Prop}

theorem weaken (h : LaneOrder d c s) (hd : ∀ z b, d' z b → d z b) (hc : ∀ z, c' z → c z) : LaneOrder d' c' s :=
  ⟨h.pool, h.laid, fun z k => h.told z (hd _ _ k), h.count, h.owner, fun r hr hp k => h.tail r hr hp (hc _ k)⟩

/-- While no run is outstanding, the run's conjuncts are not at stake. -/
theorem of_idle (h : LaneOrder d c s) (k : s.rsc.run = none) : LaneOrder d c' s :=
  ⟨h.pool, h.laid, h.told, h.count, h.owner, fun r hr => by rw [k] at hr; cases hr⟩

/-- The law looks at the pool, the lanes, whether the zones have splices, and the run. -/
theorem of_lane (h : LaneOrder d c s) (hp : poolLaw t) (hl : t.lane = s.lane)
    (hs : ∀ z, t.splice z = none ↔ s.splice z = none) (hr : continues t.rsc.run s.rsc.run) : LaneOrder d c t := by
  have hb : ∀ z, (t.splice z).isNone = (s.splice z).isNone := fun z => by
    rw [Bool.eq_iff_iff, Option.isNone_iff_eq_none, Option.isNone_iff_eq_none]
    exact hs z
  refine ⟨hp, fun z => ?_, fun z k => ?_, fun z q hq hn => ?_, fun q hq hn => ?_, fun q hq hn hc => ?_⟩
  · rw [laneSlots_of_lane hl, hl]
    exact h.laid z
  · rw [hl]
    exact h.told z (hb z ▸ k)
  · obtain ⟨r, hr, -, -, -⟩ := hr q hq
    rw [hl]
    exact h.count z r hr fun e => hn ((hs z).mpr e)
  · obtain ⟨r, hr, ho, hp, -⟩ := hr q hq
    rw [ho]
    exact (hs _).mpr (h.owner r hr (hp ▸ hn))
  · obtain ⟨r, hr, ho, hp, he⟩ := hr q hq
    rw [ho] at hc ⊢
    rw [hl, he]
    exact h.tail r hr (hp ▸ hn) hc

/-- One lane loses entries or moves its tail, the other as it was. -/
theorem of_relaid (z : Zone) (h : LaneOrder d c s) (hp : poolLaw t) (ho : t.lane z.other = s.lane z.other)
    (hs : t.splice = s.splice) (hr : t.rsc = s.rsc) (hsub : ∀ e ∈ (t.lane z).entries, e ∈ (s.lane z).entries)
    (horder : (t.lane z).entries.IsChain follows) (hpend : plainSeam (t.lane z).pendingSeam)
    (htold : d z (s.splice z).isNone → Told (t.lane z)) (hcount : (s.lane z).runCount = 0 → (t.lane z).runCount = 0)
    (htail : (t.lane z).tail = (s.lane z).tail ∨ (c z → notOwned z s.rsc.run)) : LaneOrder d c t := by
  have hslots : ∀ n ∈ laneSlots z t, n ∈ laneSlots z s := by
    intro n hn
    obtain ⟨e, he, rfl⟩ := List.mem_map.mp hn
    exact List.mem_map_of_mem (hsub e he)
  have hothers : laneSlots z.other t = laneSlots z.other s := by
    unfold laneSlots
    rw [ho]
  refine ⟨hp, fun y => ?_, fun y k => ?_, fun y q hq hn => ?_, fun q hq hn => ?_, fun q hq hn hc => ?_⟩
  · obtain rfl | rfl := Zone.eq_or_other z y
    · exact ⟨horder, hpend, fun e he hm => (h.laid y).shared e (hsub e he) (hothers ▸ hm)⟩
    · rw [ho, Zone.other_other]
      have := h.laid z.other
      rw [Zone.other_other] at this
      exact this.of_others hslots
  · rw [hs] at k
    obtain rfl | rfl := Zone.eq_or_other z y
    · exact htold k
    · rw [ho]
      exact h.told _ k
  · rw [hr] at hq
    rw [hs] at hn
    obtain rfl | rfl := Zone.eq_or_other z y
    · exact hcount (h.count y q hq hn)
    · rw [ho]
      exact h.count _ q hq hn
  · rw [hr] at hq
    rw [hs]
    exact h.owner q hq hn
  · rw [hr] at hq
    obtain e | e := Zone.eq_or_other z q.owner
    · rw [e] at hc ⊢
      rw [htail.resolve_right fun k => k hc q hq hn e, ← e]
      exact h.tail q hq hn (e ▸ hc)
    · rw [e, ho, ← e]
      exact h.tail q hq hn hc

theorem setLane (h : LaneOrder d c s) (l : Lane) (he : l.entries = (s.lane z).entries) (hpend : plainSeam l.pendingSeam)
    (htold : d z (s.splice z).isNone → Told l) (hcount : l.runCount = (s.lane z).runCount)
    (htail : l.tail = (s.lane z).tail ∨ (c z → notOwned z s.rsc.run)) : LaneOrder d c (s.setLane z l) := by
  have hl : (s.setLane z l).lane z = l := State.setLane_lane_same s z l
  refine h.of_relaid z (plain_poolLaw.lane l he h.pool) (State.setLane_lane_other s z l) rfl rfl ?_ ?_ ?_ ?_ ?_ ?_ <;>
    rw [hl]
  · exact fun e k => he ▸ k
  · rw [he]
    exact (h.laid z).order
  · exact hpend
  · exact htold
  · exact fun k => hcount.trans k
  · exact htail

theorem discard (h : LaneOrder d c s) (hd : d z true → d z (s.splice z).isNone) : LaneOrder d c (s.setSplice z none) := by
  refine ⟨plain_poolLaw.splice none h.pool, h.laid, fun y k => ?_, fun y q hq hn => ?_, fun q hq hn => ?_, h.tail⟩
  · obtain rfl | rfl := Zone.eq_or_other z y
    · rw [State.setSplice_splice_same] at k
      exact h.told y (hd k)
    · rw [State.setSplice_splice_other] at k
      exact h.told _ k
  · obtain rfl | rfl := Zone.eq_or_other z y
    · rw [State.setSplice_splice_same] at hn
      exact absurd rfl hn
    · rw [State.setSplice_splice_other] at hn
      exact h.count _ q hq hn
  · obtain e | e := Zone.eq_or_other z q.owner
    · rw [e, State.setSplice_splice_same]
    · rw [e, State.setSplice_splice_other, ← e]
      exact h.owner q hq hn

end LaneOrder
end Sys2Proof.Safety
end

-- ==== The law of lane order: the scheduler and the zones ====
section
/-! SUPPORT. The law of lane order through the scheduler's work, a flush, and the operations on one zone. -/

namespace Sys2Proof.Safety

open Sys2Proof.Machine

variable {s t : State} {z : Zone} {d : Zone → Bool → Prop} {c : Zone → Prop} {p : Zone → Prop}

/-! ## Grants -/

theorem demandOf_tail {z : Zone} (h : demandOf z s ≠ none) : ∃ a, (s.lane z).tail = some a := by
  have ho : isOpen z s = true := by
    by_contra k
    exact h (demandOf_closed (Bool.eq_false_iff.mpr k))
  unfold isOpen at ho
  cases e : (s.lane z).tail with
  | none =>
    rw [e] at ho
    cases ho
  | some a => exact ⟨a, rfl⟩

/-- The run that a grant gives a zone whose lane has a tail: a REREAD run where the zone has a splice, otherwise one that
reads on from the tail (02 R22). -/
theorem newRun_tail {a : Nat} (h : (s.lane z).tail = some a) (hp : (newRun z s).purpose ≠ .reread) :
    s.splice z = none ∧ (newRun z s).expected = a := by
  have e : newRun z s = { newRun z s with purpose := (runPlan z s).1, expected := (runPlan z s).2.1 } := rfl
  rw [e] at hp ⊢
  cases hs : s.splice z with
  | none =>
    refine ⟨rfl, ?_⟩
    show (runPlan z s).2.1 = a
    unfold runPlan
    dsimp only
    rw [hs, h]
    dsimp only
    split <;> rfl
  | some r =>
    refine absurd ?_ hp
    show (runPlan z s).1 = .reread
    unfold runPlan
    dsimp only
    rw [hs]

theorem issueRun_lane (z y : Zone) (s : State) : (issueRun z s).lane y = (s.lane y).runIssued := by cases y <;> rfl

theorem issueRun_splice (z y : Zone) (s : State) :
    (issueRun z s).splice y = if y = z then (s.splice z).map rereadIssued else s.splice y := by
  cases z <;> cases y <;> rfl

theorem issueRun_splice_none (z y : Zone) (s : State) : (issueRun z s).splice y = none ↔ s.splice y = none := by
  rw [issueRun_splice]
  split
  · rename_i e
    rw [e, Option.map_eq_none_iff]
  · rfl

/-! ## The scheduler -/

theorem LaneOrder.issueRun (h : LaneOrder d c s) (k : demandOf z s ≠ none) : LaneOrder d c (Machine.issueRun z s) := by
  obtain ⟨a, ha⟩ := demandOf_tail k
  refine ⟨plain_poolLaw.issueRun h.pool, fun y => ?_, fun y hd => ?_, fun y q _ _ => ?_, fun q hq hn => ?_, fun q hq hn _ => ?_⟩
  · have e : laneSlots y.other (Machine.issueRun z s) = laneSlots y.other s := by
      unfold laneSlots
      rw [issueRun_lane]
      rfl
    rw [issueRun_lane, e]
    exact ⟨(h.laid y).order, (h.laid y).pending, (h.laid y).shared⟩
  · have e : ((Machine.issueRun z s).splice y).isNone = (s.splice y).isNone := by
      rw [Bool.eq_iff_iff, Option.isNone_iff_eq_none, Option.isNone_iff_eq_none]
      exact issueRun_splice_none z y s
    rw [issueRun_lane]
    exact h.told y (e ▸ hd)
  · rw [issueRun_lane]
    rfl
  · cases hq
    exact (issueRun_splice_none z z s).mpr (newRun_tail ha hn).1
  · cases hq
    rw [issueRun_lane, (newRun_tail ha hn).2]
    exact ha

/-- The law through the end of a splice, of the zones whose tail is told of whether or not they have a splice. -/
theorem LaneOrder.spliced (hp : ∀ z b, p z → d z b) : Spliced p (LaneOrder d c) where
  delivery k h := h.of_lane (plain_poolLaw.delivery k h.pool) k.lane (fun z => by rw [k.splice])
    (by rw [k.rsc]; exact continues_refl _)
  rsc r k h := h.of_lane (plain_poolLaw.rsc r h.pool) rfl (fun _ => Iff.rfl) k
  issue {s z} _ hg h := by
    have hr : LaneOrder d c (refresh s) :=
      h.of_lane (plain_poolLaw.rsc _ h.pool) rfl (fun _ => Iff.rfl) (continues_refl _)
    have hd := granted_demand hg
    rw [refresh_demand, ← demandOf_refresh] at hd
    exact hr.issueRun hd
  discard hz h := h.discard fun _ => hp _ _ hz
  flushStaging {s} h := by
    refine h.of_lane (plain_poolLaw.flushStaging h.pool) (dropHolds_lane _ _) (fun z => ?_) ?_
    · rw [flushStaging_splice]
    · rw [flushStaging_only]
      exact continues_refl _

/-! ## A flush -/

/-- A zone's lane has no tail address, and no CUE or REFILL run is the zone's: no grant can give it one. -/
def Shut (z : Zone) (s : State) : Prop := (s.lane z).tail = none ∧ notOwned z s.rsc.run

theorem shut_scheduled (z : Zone) : Scheduled (Shut z) where
  delivery k h := by
    unfold Shut
    rw [k.lane, k.rsc]
    exact h
  rsc r k h := by
    refine ⟨h.1, fun q hq hn => ?_⟩
    obtain ⟨x, hx, ho, hp, -⟩ := k q hq
    exact ho ▸ h.2 x hx (hp ▸ hn)
  issue {s y} _ hg h := by
    have hd := granted_demand hg
    rw [refresh_demand] at hd
    obtain ⟨a, ha⟩ := demandOf_tail hd
    refine ⟨?_, fun q hq _ => ?_⟩
    · rw [issueRun_lane]
      exact h.1
    · cases hq
      rintro rfl
      have e : (s.lane y).tail = none := h.1
      change (s.lane y).tail = some a at ha
      rw [e] at ha
      cases ha

theorem dropRun_tail (halt : Bool) (z : Zone) (s : State) : ((dropRun halt s).lane z).tail = (s.lane z).tail := by
  have h := (atWork_dropRun halt s).keepsPlay.lane z
  unfold laneKept at h
  rw [h]

theorem shut_cutRun (h : (s.lane z).tail = none) : Shut z (cutRun s) := by
  refine (shut_scheduled z).endRun true id ⟨?_, ?_⟩
  · show ((dropRun true s).lane z).tail = none
    rw [dropRun_tail]
    exact h
  · show notOwned z (dropRun true s).rsc.run
    rw [dropRun_run]
    exact notOwned_none z

/-- The law but for the run of a zone whose lane has been flushed. -/
theorem LaneOrder.flushLane (h : LaneOrder d c s) : LaneOrder d (fun y => c y ∧ y ≠ z) (Machine.flushLane z s) := by
  have hf := removal_flushLane z s
  refine (h.weaken (d' := d) (c' := fun y => c y ∧ y ≠ z) (fun _ _ => id) fun _ => And.left).of_relaid z
    (plain_poolLaw.flushLane h.pool) hf.other ?_ ?_ ?_ ?_ ?_ ?_ ?_ ?_
  · unfold State.splice
    rw [hf.rest]
  · rw [hf.rest]
  all_goals rw [flushLane_lane]
  · exact fun e he => by cases he
  · exact .nil
  · exact (plainSeam_iff _).mpr (.inl rfl)
  · exact fun _ => told_empty
  · exact fun _ => rfl
  · exact .inr fun k => absurd rfl k.2

/-- The run of a flushed lane is handed to the other zone, which has appended since its issue and so has no splice, or cut
(02 R33). -/
theorem LaneOrder.handOver (hp : ∀ z b, p z → d z b) (h : LaneOrder d (fun y => c y ∧ y ≠ z) s) (ht : (s.lane z).tail = none) :
    LaneOrder d c (Machine.handOver z s) ∧ Shut z (Machine.handOver z s) := by
  unfold Machine.handOver
  split
  · rename_i hr
    exact ⟨h.of_idle hr, ht, by rw [hr]; exact notOwned_none z⟩
  · rename_i r hr
    split
    · split
      · rename_i hj
        obtain ⟨hje, hjc, -⟩ := hj
        have ho : s.splice z.other = none := by
          by_contra k
          have := h.count _ r hr k
          omega
        refine ⟨⟨plain_poolLaw.rsc _ h.pool, h.laid, h.told, fun y q _ hn => h.count y r hr hn, fun q hq _ => ?_,
          fun q hq _ _ => ?_⟩, ht, fun q hq _ => ?_⟩
        · cases hq
          exact ho
        · cases hq
          exact hje
        · cases hq
          exact Zone.other_ne z
      · have hd := (LaneOrder.spliced (c := fun y => c y ∧ y ≠ z) hp).dropRun true h
        exact ⟨(LaneOrder.spliced hp).endRun true id (hd.of_idle (dropRun_run true s)), shut_cutRun ht⟩
    · rename_i hn
      have notIts : r.purpose ≠ .reread → r.owner ≠ z := fun k e => hn ⟨e, k⟩
      refine ⟨⟨h.pool, h.laid, h.told, h.count, h.owner, fun q hq hq' hc => ?_⟩, ht, fun q hq hq' => ?_⟩
      · have : q = r := by
          rw [hr] at hq
          exact (Option.some.inj hq).symm
        subst this
        exact h.tail q hq hq' ⟨hc, notIts hq'⟩
      · rw [hr] at hq
        cases hq
        exact notIts hq'

theorem abandonSplice_tail (z y : Zone) (s : State) : ((abandonSplice z s).lane y).tail = (s.lane y).tail := by
  have h := (keepsPlay_abandonSplice z s).lane y
  unfold laneKept at h
  rw [h]

theorem LaneOrder.flushWith (hp : ∀ z b, p z → d z b) (hz : p z) (h : LaneOrder d c s) :
    LaneOrder d c (Machine.flushWith z s) ∧ Shut z (Machine.flushWith z s) := by
  have ha := (LaneOrder.spliced (c := fun y => c y ∧ y ≠ z) hp).abandonSplice hz h.flushLane
  have ht : ((abandonSplice z (Machine.flushLane z s)).lane z).tail = none := by
    rw [abandonSplice_tail, flushLane_lane]
    rfl
  obtain ⟨ho, hs⟩ := ha.handOver hp ht
  exact ⟨(LaneOrder.spliced hp).review ho, (shut_scheduled z).review hs⟩

/-! ## Pairs taken -/

theorem Lane.dropHead_tail (l : Lane) : l.dropHead.tail = l.tail ∧ l.dropHead.pendingSeam = l.pendingSeam
    ∧ (l.runCount = 0 → l.dropHead.runCount = 0) := by
  unfold Lane.dropHead
  split
  · exact ⟨rfl, rfl, id⟩
  · refine ⟨rfl, rfl, fun k => ?_⟩
    dsimp only
    rw [k]
    split <;> rfl

/-- What a taken pair leaves of a lane's own fields (01 R6). -/
theorem takePair_fields (z : Zone) (s : State) : ((takePair z s).lane z).tail = (s.lane z).tail
    ∧ ((takePair z s).lane z).pendingSeam = (s.lane z).pendingSeam
    ∧ ((s.lane z).runCount = 0 → ((takePair z s).lane z).runCount = 0) := by
  cases h : (s.lane z).entries with
  | nil => rw [takePair_nil h]; exact ⟨rfl, rfl, id⟩
  | cons e rest =>
    rw [takePair_cons h]
    split
    · rw [dropHold_lane, State.setLane_lane_same]
      exact Lane.dropHead_tail (Lane.taken (s.lane z))
    · rw [State.setLane_lane_same]
      exact ⟨rfl, rfl, id⟩

theorem LaneOrder.takePair (h : LaneOrder d c s) : LaneOrder d c (Machine.takePair z s) := by
  obtain ⟨ht, hm, hc⟩ := takePair_fields z s
  have only := takePair_only z s
  have hsplice : (Machine.takePair z s).splice = s.splice := by rw [only]; rfl
  have hrsc : (Machine.takePair z s).rsc = s.rsc := by rw [only]
  refine h.of_relaid z (plain_poolLaw.take h.pool) (takePair_lane_other z s) hsplice hrsc ?_ ?_ ?_ ?_ hc (.inl ht)
  · obtain e | e := takePair_entries z s <;> rw [e]
    · exact fun _ k => k
    · exact fun _ => List.mem_of_mem_tail
  · obtain e | e := takePair_entries z s <;> rw [e]
    · exact (h.laid z).order
    · exact (h.laid z).order.tail
  · rw [hm]
    exact (h.laid z).pending
  · intro hd hm' e he
    rw [hm] at hm'
    rw [ht]
    refine h.told z hd hm' e ?_
    obtain k | k := takePair_entries z s <;> rw [k] at he
    · exact he
    · cases l : (s.lane z).entries with
      | nil =>
        rw [l] at he
        cases he
      | cons x rest =>
        rw [l, List.tail_cons] at he
        rw [List.getLast?_cons, he]
        rfl

/-! ## Joined sectors -/

theorem movedEntries_order (track : Nat) (ns : List Nat) (a o : Nat) (m : Seam) :
    (movedEntries track ns a o m).IsChain follows
      ∧ ∀ e ∈ (movedEntries track ns a o m).head?, e.address = a ∧ e.seam = m := by
  induction ns generalizing a o m with
  | nil => exact ⟨.nil, fun _ he => by cases he⟩
  | cons n ns ih =>
    obtain ⟨h1, h2⟩ := ih (a + 1) 0 .none
    refine ⟨List.isChain_cons.mpr ⟨fun f hf _ => (h2 f hf).1, h1⟩, fun e he => ?_⟩
    cases he
    exact ⟨rfl, rfl⟩

theorem movedEntries_last (track : Nat) (ns : List Nat) (a o : Nat) (m : Seam) :
    ∀ e ∈ (movedEntries track ns a o m).getLast?, e.address + 1 = a + ns.length := by
  induction ns generalizing a o m with
  | nil => exact fun _ he => by cases he
  | cons n ns ih =>
    intro e he
    cases ns with
    | nil =>
      cases he
      rfl
    | cons n' ns =>
      have := ih (a + 1) 0 .none e he
      simp only [List.length_cons] at this ⊢
      omega

/-- What moves leave of the zone's own lane: its law, whatever slots the other lane lists, and what they tell of the tail. -/
theorem moved_laid {slots others : List Nat} {a o : Nat} {m : Seam} (h : Laid (s.lane z) others) (k : Told (s.lane z))
    (hm : m ≠ .none) (hn : ∀ n ∈ slots, n ∉ others) :
    Laid ((moveStaged z slots a o m s).2.lane z) others ∧ Told ((moveStaged z slots a o m s).2.lane z) := by
  obtain ⟨h1, h2, h3, h4⟩ := moveStaged_spec z slots a o m s
  by_cases e : (moveStaged z slots a o m s).1 = 0
  · rw [h3 e]
    exact ⟨h, k⟩
  obtain ⟨ht, hs⟩ := h4 e
  obtain ⟨c1, c2⟩ := movedEntries_order ((s.lane z).appending.getD 0) (slots.take (moveStaged z slots a o m s).1) a o m
  have hlast := movedEntries_last ((s.lane z).appending.getD 0) (slots.take (moveStaged z slots a o m s).1) a o m
  have hslots := movedEntries_slots ((s.lane z).appending.getD 0) (slots.take (moveStaged z slots a o m s).1) a o m
  generalize movedEntries ((s.lane z).appending.getD 0) (slots.take (moveStaged z slots a o m s).1) a o m = es at *
  have hlen : es.length = (moveStaged z slots a o m s).1 := by
    rw [← List.length_map (f := (·.slot)), hslots, List.length_take]
    omega
  refine ⟨⟨?_, by rw [hs]; exact (plainSeam_iff _).mpr (.inl rfl), fun x hx hxo => ?_⟩, fun _ x hx => ?_⟩
  · rw [h2]
    exact List.isChain_append.mpr ⟨h.order, c1, fun x _ y hy hns => absurd ((c2 y hy).2 ▸ hns) hm⟩
  · rw [h2] at hx
    obtain hx | hx := List.mem_append.mp hx
    · exact h.shared x hx hxo
    · refine absurd hxo (hn _ (List.mem_of_mem_take (i := (moveStaged z slots a o m s).1) ?_))
      rw [← hslots]
      exact List.mem_map_of_mem hx
  · have hne : es ≠ [] := fun k => e (by rw [← hlen, k]; rfl)
    rw [h2, List.getLast?_append_of_ne_nil _ hne] at hx
    rw [ht]
    have := hlast x hx
    rw [List.length_take] at this
    congr 1
    omega

theorem LaneOrder.join (k : Nat) (slots : List Nat) (a o : Nat) (m : Seam) (hz : ∀ b, d z b) (hs : s.splice z ≠ none)
    (hk : slots <+: s.spl.staging.drop k) (hm : m = .verified ∨ m = .unverified) (h : LaneOrder d c s) :
    LaneOrder d c ((joinedStore z k slots a o m s).setSplice z none) := by
  obtain ⟨hp, hd⟩ := (poolLaw_iff s).mp h.pool
  have staged : ∀ n ∈ slots, ∀ y, n ∉ laneSlots y s := fun n hn =>
    hd.apart n (List.mem_of_mem_drop (hk.subset hn))
  have hm' : m ≠ .none := by
    obtain rfl | rfl := hm <;> exact fun e => by cases e
  obtain ⟨h1, h2, -, -⟩ := moveStaged_spec z slots a o m s
  obtain ⟨hl, ht⟩ := moved_laid (a := a) (o := o) (h.laid z) (h.told z (hz _)) hm' fun n hn => staged n hn _
  have only := joinedStore_only z k slots a o m s
  have lz : (joinedStore z k slots a o m s).lane z = (moveStaged z slots a o m s).2.lane z := by rw [joinedStore_lane]
  have lo := joinedStore_lane_other z k slots a o m s
  have so : laneSlots z.other (joinedStore z k slots a o m s) = laneSlots z.other s := by
    unfold laneSlots
    rw [lo]
  have sz : ∀ n ∈ laneSlots z (joinedStore z k slots a o m s), n ∈ laneSlots z s ∨ n ∈ slots := by
    intro n hn
    unfold laneSlots at hn
    rw [lz, h2, List.map_append, movedEntries_slots] at hn
    exact (List.mem_append.mp hn).imp_right List.mem_of_mem_take
  have run : (joinedStore z k slots a o m s).rsc = s.rsc := by rw [only]
  have splice : ∀ y, y ≠ z → ((joinedStore z k slots a o m s).setSplice z none).splice y = s.splice y := fun y hy => by
    rw [State.setSplice_splice, if_neg hy, only]
    rfl
  refine ⟨plain_poolLaw.splice none (plain_poolLaw.join k slots a o m hk h.pool), fun y => ?_, fun y hy => ?_,
    fun y q hq hn => ?_, fun q hq hn => ?_, fun q hq hn hc => ?_⟩
  · show Laid ((joinedStore z k slots a o m s).lane y) (laneSlots y.other (joinedStore z k slots a o m s))
    obtain rfl | rfl := Zone.eq_or_other z y
    · rw [lz, so]
      exact hl
    · rw [lo, Zone.other_other]
      have ho := h.laid z.other
      rw [Zone.other_other] at ho
      refine ⟨ho.order, ho.pending, fun e he hn => ?_⟩
      obtain hn | hn := sz _ hn
      · exact ho.shared e he hn
      · exact absurd (List.mem_map_of_mem he) (staged _ hn z.other)
  · show Told ((joinedStore z k slots a o m s).lane y)
    obtain rfl | rfl := Zone.eq_or_other z y
    · rw [lz]
      exact ht
    · rw [lo]
      rw [splice _ (Zone.other_ne z)] at hy
      exact h.told _ hy
  · change (joinedStore z k slots a o m s).rsc.run = some q at hq
    rw [run] at hq
    show ((joinedStore z k slots a o m s).lane y).runCount = 0
    obtain rfl | rfl := Zone.eq_or_other z y
    · rw [State.setSplice_splice_same] at hn
      exact absurd rfl hn
    · rw [splice _ (Zone.other_ne z)] at hn
      rw [lo]
      exact h.count _ q hq hn
  all_goals
    change (joinedStore z k slots a o m s).rsc.run = some q at hq
    rw [run] at hq
    have ho := h.owner q hq hn
    have hne : q.owner ≠ z := fun e => hs (e ▸ ho)
  · rw [splice _ hne]
    exact ho
  · show ((joinedStore z k slots a o m s).lane q.owner).tail = _
    obtain e | e := Zone.eq_or_other z q.owner
    · exact absurd e hne
    · rw [e, lo, ← e]
      exact h.tail q hq hn hc

/-! ## The operations on a zone -/

/-- The law through the operations on the zones in `p`, while the zone's own run stands elsewhere. -/
theorem LaneOrder.closed {q : Zone → Option Run → Prop} (hp : ∀ z b, p z → d z b)
    (hq : ∀ z o, q z o ↔ (c z → notOwned z o)) : Closed p q (LaneOrder d c) where
  toSpliced := LaneOrder.spliced hp
  idle z := (hq z none).mpr fun _ => notOwned_none z
  spliced {s z} hs h := (hq z _).mpr fun _ r hr hn e => hs (e ▸ h.owner r hr hn)
  ctl x k l h := h.of_lane (plain_poolLaw.ctl x k l h.pool) rfl (fun _ => Iff.rfl) (continues_refl _)
  conc x k l h := h.of_lane (plain_poolLaw.conc x k l h.pool) rfl (fun _ => Iff.rfl) (continues_refl _)
  health g x k h := by
    have e := healthEvent_only g x k
    refine h.of_lane (plain_poolLaw.health g x k h.pool) ?_ (fun z => by rw [(e _).splice]; exact Iff.rfl) ?_
    · funext z
      unfold State.lane
      rw [(e _).sst]
    · rw [healthEvent_rsc]
      exact continues_refl _
  search x h := h.of_lane (plain_poolLaw.search x h.pool) rfl (fun _ => Iff.rfl) (continues_refl _)
  replace {s z} r hs h := h.of_lane (plain_poolLaw.splice (some r) h.pool) rfl (fun y => by
    rw [State.setSplice_splice]
    split
    · rename_i e
      subst e
      exact ⟨fun k => absurd k (Option.some_ne_none r), fun k => absurd k hs⟩
    · exact Iff.rfl) (continues_refl _)
  convert {s z r} x hr hs ho ht h := ⟨plain_poolLaw.rsc _ h.pool, h.laid, h.told, fun y _ _ => h.count y r hr,
    fun y hy _ => by cases hy; exact ho ▸ hs, fun y hy _ _ => by cases hy; exact ho ▸ ht⟩
  armed {s z} n hz hr h := by
    refine h.setLane _ rfl ?_ (fun hd => ?_) rfl ?_
    · show plainSeam (if n.contiguous then (s.lane z).pendingSeam else .track)
      split
      · exact (h.laid z).pending
      · exact (plainSeam_iff _).mpr (.inr (.inl rfl))
    · have hk := h.told z hd
      unfold Told Lane.armed
      dsimp only
      split
      · exact hk
      · exact fun k => by cases k
    · exact .inr ((hq z _).mp hr)
  readOver {s z} n hz hr h := by
    refine h.setLane _ rfl ?_ (fun hd => ?_) rfl ?_
    · show plainSeam (if n.contiguous ∨ (s.lane z).pendingSeam = .gap then (s.lane z).pendingSeam else .track)
      split
      · exact (h.laid z).pending
      · exact (plainSeam_iff _).mpr (.inr (.inl rfl))
    · have hk := h.told z hd
      unfold Told Lane.readOver
      dsimp only
      intro hm
      split at hm
      · rename_i hg
        have hc : n.contiguous = true := hg.resolve_right fun k => by rw [k] at hm; cases hm
        rw [if_pos hc]
        exact hk hm
      · cases hm
    · exact .inr ((hq z _).mp hr)
  unbound {s z} h := h.setLane _ rfl (h.laid z).pending (fun hd => h.told z hd) rfl (.inl rfl)
  stepOver {s z} a hz hr h := h.setLane _ rfl ((plainSeam_iff _).mpr (.inr (.inr rfl))) (fun _ k => by cases k) rfl
    (.inr ((hq z _).mp hr))
  cued {s z} a track hz hr he h := h.setLane _ rfl ((plainSeam_iff _).mpr (.inl rfl)) (fun _ _ e k => by
    change (s.lane z).entries.getLast? = some e at k
    rw [he] at k
    cases k) rfl (.inr ((hq z _).mp hr))
  flush {s z} hz h := by
    obtain ⟨h1, h2⟩ := h.flushWith hp hz
    exact ⟨h1, (hq z _).mpr fun _ => h2.2⟩
  take h := h.takePair
  join k slots a o m hz hs hk hm h := h.join k slots a o m (fun b => hp _ b hz) hs hk hm

end Sys2Proof.Safety
end

-- ==== The law of lane order: sectors, rewinds and trims ====
section
/-! SUPPORT. The law of lane order through a stored sector, a rewind and a trim, and the step lemma. -/

namespace Sys2Proof.Safety

open Sys2Proof.Machine

variable {s t : State} {z : Zone} {d : Zone → Bool → Prop} {c : Zone → Prop}

/-! ## A stored sector -/

theorem LaneOrder.store {r : Run} (q : Run) (rec : Sector) (hd : ∀ z b, d z b) (hr : s.rsc.run = some r)
    (hn : r.purpose ≠ .reread) (hc : canStore r.owner s = true) (ho : q.owner = r.owner)
    (he : q.expected = r.expected + 1) (hco : c r.owner) (h : LaneOrder d c s) :
    LaneOrder d c ((storeSector r.owner rec r.expected s).setRun (some q)) := by
  have hfree := hc
  unfold canStore at hfree
  simp only [Bool.and_eq_true, Bool.not_eq_true', List.isEmpty_eq_false_iff] at hfree
  obtain ⟨n, rest, hf⟩ := List.exists_cons_of_ne_nil hfree.2
  obtain ⟨-, -, fresh, -⟩ := h.pool.fresh hf
  have told : ∀ y, Told (s.lane y) := fun y => h.told y (hd _ _)
  have tail := h.tail r hr hn hco
  have own := storeSector_lane_same (x := r.owner) (rec := rec) (a := r.expected) hf
  have oth := storeSector_lane_other (x := r.owner) (rec := rec) (a := r.expected) hf
  obtain ⟨slotsOwn, slotsOther⟩ := storeSector_laneSlots (x := r.owner) (rec := rec) (a := r.expected) hf
  have pool := plain_poolLaw.store rec r.expected hc h.pool
  have splice : (storeSector r.owner rec r.expected s).splice = s.splice := by
    rw [storeSector_only]
    rfl
  generalize storeSector r.owner rec r.expected s = u at *
  have grows : ∀ y, ∀ m ∈ laneSlots y u, m ∈ laneSlots y s ∨ m = n := by
    intro y m hm
    obtain rfl | rfl := Zone.eq_or_other r.owner y
    · rw [slotsOwn] at hm
      exact (List.mem_append.mp hm).imp_right List.mem_singleton.mp
    · rw [slotsOther] at hm
      refine (List.mem_append.mp hm).imp_right fun k => ?_
      split at k
      · exact List.mem_singleton.mp k
      · cases k
  refine ⟨plain_poolLaw.rsc _ pool, fun y => ?_, fun y _ => ?_, fun y x _ hs => ?_, fun x hx _ => ?_, fun x hx _ _ => ?_⟩
  · show Laid (u.lane y) (laneSlots y.other u)
    obtain rfl | rfl := Zone.eq_or_other r.owner y
    · rw [own]
      exact (h.laid _).append (told _) tail (grows _) (fresh r.owner)
    · rw [oth]
      unfold Lane.joined
      split
      · rename_i j
        have tailOther : (s.lane r.owner.other).tail = some r.expected := by
          unfold joins at j
          simp only [Bool.and_eq_true, beq_iff_eq] at j
          exact j.1.1.1.2
        exact (h.laid _).append (told _) tailOther (grows _) (fresh r.owner.other)
      · refine ⟨(h.laid _).order, (h.laid _).pending, fun e he hm => (h.laid _).shared e he ?_⟩
        exact (grows _ _ hm).resolve_right fun k => fresh r.owner.other (k ▸ List.mem_map_of_mem he)
  · show Told (u.lane y)
    obtain rfl | rfl := Zone.eq_or_other r.owner y
    · rw [own]
      exact told_append _ _ _
    · rw [oth]
      unfold Lane.joined
      split
      · exact told_append _ _ _
      · exact told _
  · change u.splice y ≠ none at hs
    show (u.lane y).runCount = 0
    rw [splice] at hs
    obtain rfl | rfl := Zone.eq_or_other r.owner y
    · exact absurd (h.owner r hr hn) hs
    · rw [oth]
      unfold Lane.joined
      rw [if_neg]
      · exact h.count _ r hr hs
      · intro j
        unfold joins at j
        simp only [Bool.and_eq_true, Option.isNone_iff_eq_none] at j
        exact hs j.1.1.1.1.2
  · cases hx
    show u.splice q.owner = none
    rw [splice, ho]
    exact h.owner r hr hn
  · cases hx
    show (u.lane q.owner).tail = some q.expected
    rw [ho, own, he]
    rfl

/-! ## Removals -/

theorem removeTails_runCount (n : Nat) (z : Zone) (s : State) (h : (s.lane z).runCount = 0) :
    ((removeTails n z s).lane z).runCount = 0 := by
  have one : ∀ s : State, (s.lane z).runCount = 0 → ((removeTail z s).lane z).runCount = 0 := by
    intro s h
    unfold removeTail
    split
    · exact h
    · rename_i e he
      rw [dropInterpolation_lane, dropHold_lane, State.setLane_lane_same]
      unfold Lane.dropTail
      simp only [he, h]
  induction n generalizing s with
  | zero => exact h
  | succ n ih => exact ih _ (one s h)

theorem removal.splice {s t : State} (h : removal z s t) : t.splice = s.splice := by
  unfold State.splice
  rw [h.rest]

theorem removal.rsc {s t : State} (h : removal z s t) : t.rsc = s.rsc := by rw [h.rest]

/-- A trim that leaves entries which end at the given stop (01 R16). -/
theorem LaneOrder.trimLane (track stop : Nat) (hc : ¬ c z)
    (k : ∀ e, ((s.lane z).entries.take ((s.lane z).entries.length - trimCount (s.lane z))).getLast? = some e →
      e.address + 1 = stop) (h : LaneOrder d c s) : LaneOrder d c (Machine.trimLane z track stop s) := by
  have hr := removal_trimLane z track stop s
  have hl : (Machine.trimLane z track stop s).lane z = { (removeTails (trimCount (s.lane z)) z s).lane z with
      tail := some stop, appending := some track, pendingSeam := .none, boundary := .absent } := by
    unfold Machine.trimLane
    rw [State.setLane_lane_same]
  refine h.of_relaid z (plain_poolLaw.trimLane track stop h.pool) hr.other hr.splice hr.rsc ?_ ?_ ?_ ?_ ?_ ?_ <;>
    rw [hl] <;> dsimp only
  · rw [removeTails_entries]
    exact fun e => List.mem_of_mem_take
  · rw [removeTails_entries]
    exact (h.laid z).order.take _
  · exact (plainSeam_iff _).mpr (.inl rfl)
  · intro _ _ e he
    dsimp only at he
    rw [removeTails_entries] at he
    dsimp only
    rw [k e he]
  · exact fun hz => removeTails_runCount _ z s hz
  · exact .inr fun hz => absurd hz hc

/-! ## Rewinds -/

theorem removal_rewindEntry (z : Zone) (e : Entry) (s : State) : removal z s (rewindEntry z e s) :=
  removal_trans (removal_removeTail z s) (removal_setLane z _ _)

/-- A rewound entry (01 R14): where its seam is not a splice's, the lane it leaves is told of its new tail. -/
theorem LaneOrder.rewindEntry {e : Entry} (hl : (s.lane z).entries.getLast? = some e)
    (hm : (∃ b, d z b) → plainSeam e.seam) (hc : ¬ c z) (h : LaneOrder d c s) : LaneOrder d c (Machine.rewindEntry z e s) := by
  have hr := removal_rewindEntry z e s
  have hlane : (Machine.rewindEntry z e s).lane z = { (removeTail z s).lane z with
      tail := some e.address
      pendingSeam := if e.seam = .track ∨ e.seam = .gap then e.seam else .none } := by
    unfold Machine.rewindEntry
    rw [State.setLane_lane_same]
  have horder := (h.laid z).order
  rw [← List.dropLast_append_getLast? e hl] at horder
  obtain ⟨order, -, last⟩ := List.isChain_append.mp horder
  refine h.of_relaid z (plain_poolLaw.rewindEntry e h.pool) hr.other hr.splice hr.rsc ?_ ?_ ?_ ?_ ?_ ?_ <;>
    rw [hlane] <;> dsimp only
  · rw [removeTail_entries]
    exact fun x => List.mem_of_mem_dropLast
  · rw [removeTail_entries]
    exact order
  · rw [plainSeam_iff]
    split
    · rename_i k
      exact .inr k
    · exact .inl rfl
  · intro hd hs x hx
    dsimp only at hs hx ⊢
    rw [removeTail_entries] at hx
    have seam : e.seam = .none := by
      obtain k | k := (plainSeam_iff _).mp (hm ⟨_, hd⟩)
      · exact k
      · rw [if_pos k] at hs
        exact hs
    rw [last x hx e rfl seam]
  · intro hz
    exact removeTails_runCount 1 z s hz
  · exact .inr fun hz => absurd hz hc

theorem rewindEntry_last_other {x : Zone} {e : Entry} :
    ((Machine.rewindEntry x e s).lane x.other).entries.getLast? = (s.lane x.other).entries.getLast? := by
  rw [(removal_rewindEntry x e s).other]

theorem LaneOrder.rewindLoop (n : Nat) (x : Zone) (px py : Bool) (h : LaneOrder (toldBut x) (fun _ => False) s) :
    LaneOrder (toldBut x) (fun _ => False) (Machine.rewindLoop n x px py s)
      ∧ (Machine.rewindLoop n x px py s).rsc = s.rsc := by
  induction n generalizing s px py with
  | zero => exact ⟨h, rfl⟩
  | succ n ih =>
    unfold Machine.rewindLoop
    split
    · exact ⟨h, rfl⟩
    · rename_i e he
      have one : LaneOrder (toldBut x) (fun _ => False) (Machine.rewindEntry x e s) :=
        h.rewindEntry he (fun ⟨_, hb⟩ => absurd rfl hb) id
      have rsc := (removal_rewindEntry x e s).rsc
      have next : ∀ px py, LaneOrder (toldBut x) (fun _ => False) (Machine.rewindLoop n x px py (Machine.rewindEntry x e s))
          ∧ (Machine.rewindLoop n x px py (Machine.rewindEntry x e s)).rsc = s.rsc := fun px py => by
        obtain ⟨k1, k2⟩ := ih px py one
        exact ⟨k1, k2.trans rsc⟩
      split
      · exact ⟨h, rfl⟩
      · dsimp only
        split
        · rename_i f hf
          split
          · rename_i hslot
            split
            · exact ⟨h, rfl⟩
            · have shared : plainSeam f.seam := by
                refine (h.laid x.other).shared f (List.mem_of_getLast? hf) ?_
                rw [Zone.other_other, hslot]
                exact List.mem_map_of_mem (List.mem_of_getLast? he)
              have two := one.rewindEntry (rewindEntry_last_other.trans hf) (fun _ => shared) id
              obtain ⟨k1, k2⟩ := ih _ _ two
              exact ⟨k1, k2.trans ((removal_rewindEntry x.other f _).rsc.trans rsc)⟩
          · exact next _ _
        · exact next _ _

theorem LaneOrder.splicePath (x : Zone) (cause : SpliceCause) (hr : s.rsc.run = none) (h : LaneOrder everTold c s) :
    LaneOrder (toldUnspliced x) c (Machine.splicePath x cause s) := by
  obtain ⟨hk, hrsc⟩ := (h.weaken (d' := toldBut x) (c' := fun _ => False) (fun _ _ _ => trivial)
    (fun _ => False.elim)).rewindLoop (rewindCount x cause s) x false false
  unfold Machine.splicePath captureSplice rewind
  generalize Machine.rewindLoop (rewindCount x cause s) x false false s = u at hk hrsc
  dsimp only
  have idle : u.rsc.run = none := by rw [hrsc]; exact hr
  refine ⟨plain_poolLaw.splice _ hk.pool, hk.laid, fun y hy => ?_, fun y q hq => ?_, fun q hq => ?_, fun q hq => ?_⟩
  · refine hk.told y fun e => ?_
    subst e
    have := hy rfl
    rw [State.setSplice_splice_same] at this
    cases this
  all_goals
    change u.rsc.run = some q at hq
    rw [idle] at hq
    cases hq

/-! ## The step lemma -/

theorem laneOrder_cleared (h : poolLaw s) (h1 : t.sst = s.sst.cleared) (h2 : t.spl = .initial) (h3 : t.rsc.run = none) :
    LaneOrder d c t := by
  have lane : ∀ z, t.lane z = Lane.empty := by
    intro z
    unfold State.lane
    rw [h1]
    cases z <;> rfl
  refine ⟨poolLaw_cleared h h1 h2, fun z => ?_, fun z _ => ?_, fun z q hq => ?_, fun q hq => ?_, fun q hq => ?_⟩
  · rw [lane]
    exact laid_empty _
  · rw [lane]
    exact told_empty
  all_goals
    rw [h3] at hq
    cases hq

/-- A lane whose armed NEXT may be withdrawn has entries that end at ACTIVE's end (01 R16, LOG 36). -/
def TrimsFit (s : State) : Prop := ∀ z, (s.ctl z).next ≠ none → trimFits z s

theorem laneOrder_law : Law (fun x z => z ≠ x) notOwned TrimsFit (LaneOrder everTold (fun _ => True))
    (LaneOrder everTold (fun _ => False)) (fun x => LaneOrder (toldUnspliced x) (fun _ => True)) where
  strict := LaneOrder.closed (fun _ _ _ => trivial) fun _ _ => ⟨fun h _ => h, fun h => h trivial⟩
  loose := LaneOrder.closed (fun _ _ _ => trivial) fun _ _ => ⟨fun _ h => h.elim, fun _ => trivial⟩
  weak _ := LaneOrder.closed (fun _ _ hp e => absurd e hp) fun _ _ => ⟨fun h _ => h, fun h => h trivial⟩
  other x := Zone.other_ne x
  loosen h := h.weaken (fun _ _ => id) fun _ _ => trivial
  weaken _ h := h.weaken (fun _ _ _ => trivial) fun _ => id
  tighten h k := ⟨h.pool, h.laid, h.told, h.count, h.owner, fun r hr hn _ => k r hr hn⟩
  flying hr hn h := .inr (by
    unfold holdsStaging
    rw [h.owner _ hr hn])
  store q rec hr hn hc ho _ he h := h.store q rec (fun _ _ => trivial) hr hn hc ho he trivial
  stage hl hk h := h.of_lane (plain_poolLaw.stage hl hk h.pool) (by
    obtain ⟨rest, -, rfl⟩ := takeSlot_some.mp hk
    rfl) (fun z => by
    obtain ⟨rest, -, rfl⟩ := takeSlot_some.mp hk
    exact Iff.rfl) (by
    obtain ⟨rest, -, rfl⟩ := takeSlot_some.mp hk
    exact continues_refl _)
  capture x cause hr h := h.splicePath x cause hr
  trim hf ha hn h := (h.weaken (fun _ _ => id) fun _ _ => trivial).trimLane _ _ id fun e he => hf _ hn _ e ha he
  fits_of hl hc hf z hn := by
    obtain ⟨ha, hn'⟩ := hc z
    unfold trimFits
    rw [hl, ha]
    exact hf z (hn' ▸ hn)
  program l k h := h.of_lane (plain_poolLaw.program l k h.pool) rfl (fun _ => Iff.rfl) (continues_refl _)
  setup e k t l r x f h := h.of_lane (plain_poolLaw.setup e k t l r x f h.pool) rfl (fun _ => Iff.rfl) (continues_refl _)
  outside i b m l h := h.of_lane (plain_poolLaw.outside i b m l h.pool) rfl (fun _ => Iff.rfl) (continues_refl _)
  cmi l k h := h.of_lane (plain_poolLaw.cmi l k h.pool) rfl (fun _ => Iff.rfl) (continues_refl _)
  policy st f h := h.of_lane (plain_poolLaw.policy st f h.pool) rfl (fun _ => Iff.rfl) (continues_refl _)
  unmapped h := h.of_lane (plain_poolLaw.unmapped h.pool) rfl (fun _ => Iff.rfl) (continues_refl _)
  powerOn h := laneOrder_cleared h.pool rfl rfl rfl
  linkReset h := laneOrder_cleared h.pool (by unfold linkReset; rw [post_sst]) (by unfold linkReset; rw [post_spl])
    (by unfold linkReset; rw [post_rsc]; rfl)
  softReset h := laneOrder_cleared h.pool (by unfold softReset; rw [post_sst]) (by unfold softReset; rw [post_spl])
    (by unfold softReset; rw [post_rsc]; rfl)

/-- A law of lane order whose pending seams tell of their tails (LOG 36). -/
theorem laneOrder_of_laws {i : Instr} (hp : poolLaw s) (hl : laneLaw s) (hs : seamsTell i s) :
    LaneOrder everTold (fun _ => True) s := by
  have h := (laneLaw_iff s).mp ⟨hp, hl⟩
  refine ⟨h.pool, h.laid, fun z _ => ?_, h.count, h.owner, h.tail⟩
  cases e : s.splice z with
  | none => exact h.told z (by rw [e]; rfl)
  | some r =>
    have tells : ∀ z, (s.lane z).pendingSeam = .none → s.splice z ≠ none → tailFollows z s := by
      rintro (_ | _)
      · exact hs.1.1
      · exact hs.2.1
    exact fun hm => tells z hm (by rw [e]; exact Option.some_ne_none r)

/-- A step with nothing to do leaves the state. -/
theorem step_of_no_command (h : s.pending.head? = none) : step s = .next s := by
  unfold step
  rw [List.head?_eq_none_iff.mp h]

/-- Settles O58. The pool's law is plain (`plain_poolLaw`); the law of lane order is that of `laneOrder_law`, which a step
keeps but for the told tail of the one zone it may have put on the splice path. -/
theorem stepKeepsPoolLaw : Obligations.StepKeepsPoolLaw := by
  unfold Obligations.StepKeepsPoolLaw
  intro s t hp hstep
  refine ⟨plain_poolLaw.step hp hstep, fun hl hs => ?_⟩
  cases hc : s.pending.head? with
  | none =>
    rw [step_of_no_command hc] at hstep
    cases hstep
    exact hl
  | some i =>
    have hi := hs i hc
    have fits : ∀ c, s.pending.head? = some c → Law.edits c → TrimsFit s := by
      intro c hc' he z hn
      rw [hc] at hc'
      cases hc'
      cases z
      · exact hi.1.2 he hn
      · exact hi.2.2 he hn
    obtain ⟨x, h⟩ := laneOrder_law.step fits (laneOrder_of_laws hp hl hi) hstep
    have hw : LaneOrder (fun _ unspliced => unspliced = true) (fun _ => True) t := h.weaken (fun _ _ k _ => k) fun _ => id
    exact ((laneLaw_iff t).mpr hw).2

end Sys2Proof.Safety
end

-- ==== The values after power-on ====
section
/-! SUPPORT. What power-on leaves, and that it meets the laws. -/

namespace Sys2Proof.Safety

open Sys2Proof.Machine

/-- Power-on leaves every lane empty. -/
theorem reset_lane (z : Zone) : State.reset.lane z = Lane.empty := by cases z <;> rfl

/-- No slot has a reference after power-on. -/
theorem reset_references (n : Nat) : references n State.reset = 0 := by
  unfold references laneSlots
  rw [reset_lane, reset_lane]
  rfl

/-- Power-on leaves every slot with no holder (01 R19). -/
theorem reset_holders : ∀ x ∈ State.reset.sst.slots, x.holders = 0 := by
  intro x hx
  rw [List.eq_of_mem_replicate (show x ∈ List.replicate 512 ⟨Sector.blank, 0⟩ from hx)]

/-- Power-on leaves the slots with all of them free (01 R2, R3, R19). -/
theorem reset_poolLaw : poolLaw State.reset := by
  have slots : State.reset.sst.slots = List.replicate 512 ⟨Sector.blank, 0⟩ := rfl
  have lanes : ∀ z, laneSlots z State.reset = [] := fun z => by
    unfold laneSlots
    rw [reset_lane]
    rfl
  refine ⟨?_, ?_, fun n => ?_, fun n hn => ?_, fun n _ => reset_references n, ?_, ?_, List.nodup_nil, fun n hn => by cases hn⟩
  · rw [slots, List.length_replicate]
  · unfold State.reset Sst.initial
    dsimp only
    exact List.nodup_range
  · unfold State.reset Sst.initial
    dsimp only
    rw [List.mem_range]
    exact ⟨fun h => ⟨h, reset_references n⟩, And.left⟩
  · rw [reset_references]
    unfold State.slot
    rw [slots, List.getD_eq_getElem?_getD, List.getElem?_replicate, if_pos hn]
    rfl
  · rw [lanes]
    exact List.nodup_nil
  · rw [lanes]
    exact List.nodup_nil

/-- Empty lanes with no run are in order. -/
theorem reset_laneLaw : laneLaw State.reset := by
  have h : LaneOrder (fun _ unspliced => unspliced = true) (fun _ => True) State.reset := by
    refine ⟨reset_poolLaw, fun z => ?_, fun z _ => ?_, fun z r hr => ?_, fun r hr => ?_, fun r hr => ?_⟩
    · rw [reset_lane]
      exact laid_empty _
    · rw [reset_lane]
      exact told_empty
    all_goals cases hr
  exact ((laneLaw_iff _).mpr h).2

/-- Settles O6, block by block. -/
theorem resetValues : Obligations.ResetValues := by
  unfold Obligations.ResetValues
  refine ⟨rfl, ?_, reset_poolLaw.1, reset_holders, ⟨rfl, rfl⟩, rfl, rfl, rfl, ⟨rfl, rfl⟩, rfl, rfl, rfl, rfl, rfl, rfl, rfl⟩
  unfold State.reset Sst.initial
  dsimp only

/-- Settles O7, law by law: those of the pool and of lane order by `reset_poolLaw` and `reset_laneLaw`, the others being
decided on the reset values. -/
theorem resetMeetsTheLaws : Obligations.ResetMeetsTheLaws := by
  unfold Obligations.ResetMeetsTheLaws
  refine ⟨?_, ?_, ?_, ?_, reset_poolLaw, ?_, ?_, reset_laneLaw⟩
  · unfold bounded both
    decide
  · unfold setupsLaw setupLaw both
    decide
  · unfold gainLaw both
    decide
  · unfold mapLaw recordLaw
    decide
  · unfold readingLaw
    decide
  · unfold contextLaw contextLawOf both
    decide

end Sys2Proof.Safety
end

-- ==== The standard form of a flag list ====
section
/-! SUPPORT. Sorting and merging keep the flagged pairs (01 R1). -/

namespace Sys2Proof.Safety

open Sys2Proof.Machine

/-- The pairs a run flags. -/
def FlagRun.covers (r : FlagRun) (i : Nat) : Prop := r.start ≤ i ∧ i < r.start + r.len

theorem flaggedAt_runs {rs : List FlagRun} {i : Nat} : flaggedAt (.runs rs) i = true ↔ ∃ r ∈ rs, FlagRun.covers r i := by
  unfold flaggedAt FlagRun.covers
  simp

theorem insertRun_perm (r : FlagRun) (rs : List FlagRun) : (insertRun r rs).Perm (r :: rs) := by
  induction rs with
  | nil => exact .refl _
  | cons x xs ih =>
    unfold insertRun
    split
    · exact .refl _
    · exact (ih.cons x).trans (.swap r x xs)

theorem sortRuns_perm (rs : List FlagRun) : (sortRuns rs).Perm rs := by
  induction rs with
  | nil => exact .refl _
  | cons r rs ih => exact (insertRun_perm r _).trans (ih.cons r)

/-- Runs in ascending order of start. -/
def Ascending (rs : List FlagRun) : Prop := rs.Pairwise fun x y => x.start ≤ y.start

theorem ascending_insertRun {r : FlagRun} {rs : List FlagRun} (h : Ascending rs) : Ascending (insertRun r rs) := by
  unfold Ascending at *
  induction rs with
  | nil => exact List.pairwise_singleton _ r
  | cons x xs ih =>
    obtain ⟨hx, hxs⟩ := List.pairwise_cons.mp h
    unfold insertRun
    split
    · rename_i hle
      refine List.pairwise_cons.mpr ⟨fun y hy => ?_, h⟩
      obtain rfl | hy := List.mem_cons.mp hy
      · exact hle
      · exact hle.trans (hx y hy)
    · rename_i hle
      refine List.pairwise_cons.mpr ⟨fun y hy => ?_, ih hxs⟩
      obtain rfl | hy := List.mem_cons.mp ((insertRun_perm r xs).subset hy)
      · omega
      · exact hx y hy

theorem ascending_sortRuns (rs : List FlagRun) : Ascending (sortRuns rs) := by
  induction rs with
  | nil => exact List.Pairwise.nil
  | cons r rs ih => exact ascending_insertRun ih

/-- A run of at least one pair that ends by pair 587. -/
def FlagRun.fits (r : FlagRun) : Prop := 1 ≤ r.len ∧ r.start + r.len ≤ 588

/-- Runs that ascend and neither overlap nor touch. -/
def Apart (rs : List FlagRun) : Prop := rs.Pairwise fun x y => x.start + x.len < y.start

/-- What merging makes of ascending runs that fit: runs apart that fit, the first beginning where the first did, no more of
them, and flagging the same pairs (01 R1). -/
structure Merged (cur : FlagRun) (rs merged : List FlagRun) : Prop where
  apart  : Apart merged
  fits   : ∀ r ∈ merged, FlagRun.fits r
  begins : ∀ r ∈ merged, cur.start ≤ r.start
  length : merged.length ≤ rs.length + 1
  covers : ∀ i, (∃ r ∈ merged, FlagRun.covers r i) ↔ ∃ r ∈ cur :: rs, FlagRun.covers r i

theorem merged_mergeInto {cur : FlagRun} {rs : List FlagRun} (ha : Ascending (cur :: rs))
    (hf : ∀ r ∈ cur :: rs, FlagRun.fits r) : Merged cur rs (mergeInto cur rs) := by
  induction rs generalizing cur with
  | nil => exact ⟨List.pairwise_singleton _ cur, hf, fun r hr => by rw [List.mem_singleton.mp hr], le_rfl, fun i => Iff.rfl⟩
  | cons r rs ih =>
    obtain ⟨hcur, hrs⟩ := List.pairwise_cons.mp ha
    obtain ⟨hr, hrs'⟩ := List.pairwise_cons.mp hrs
    have fcur := hf cur List.mem_cons_self
    have fr := hf r (List.mem_cons_of_mem _ List.mem_cons_self)
    have le := hcur r List.mem_cons_self
    unfold FlagRun.fits at fcur fr
    unfold mergeInto
    split
    · rename_i touch
      have hm := ih (cur := ⟨cur.start, max (cur.start + cur.len) (r.start + r.len) - cur.start⟩)
        (List.pairwise_cons.mpr ⟨fun y hy => hcur y (List.mem_cons_of_mem _ hy), hrs'⟩) (fun y hy => by
          obtain rfl | hy := List.mem_cons.mp hy
          · unfold FlagRun.fits
            dsimp only
            omega
          · exact hf y (List.mem_cons_of_mem _ (List.mem_cons_of_mem _ hy)))
      refine ⟨hm.apart, hm.fits, hm.begins, hm.length.trans (Nat.le_succ _), fun i => (hm.covers i).trans ?_⟩
      have joined : FlagRun.covers ⟨cur.start, max (cur.start + cur.len) (r.start + r.len) - cur.start⟩ i
          ↔ FlagRun.covers cur i ∨ FlagRun.covers r i := by
        unfold FlagRun.covers
        dsimp only
        omega
      simp only [List.exists_mem_cons_iff, joined, or_assoc]
    · rename_i gap
      have hm := ih hrs fun y hy => hf y (List.mem_cons_of_mem _ hy)
      refine ⟨List.pairwise_cons.mpr ⟨fun y hy => ?_, hm.apart⟩, fun y hy => ?_, fun y hy => ?_,
        Nat.succ_le_succ hm.length, fun i => ?_⟩
      · have := hm.begins y hy
        omega
      · obtain rfl | hy := List.mem_cons.mp hy
        · exact hf y List.mem_cons_self
        · exact hm.fits y hy
      · obtain rfl | hy := List.mem_cons.mp hy
        · exact le_rfl
        · exact le.trans (hm.begins y hy)
      · rw [List.exists_mem_cons_iff, List.exists_mem_cons_iff, hm.covers i]

/-- A clipped run flags what the run does of the 588 pairs, and fits. -/
theorem clipRun_spec {r : FlagRun} (h : runHandedOn r = true) :
    FlagRun.fits (clipRun r) ∧ ∀ i, i < 588 → (FlagRun.covers (clipRun r) i ↔ FlagRun.covers r i) := by
  unfold runHandedOn at h
  simp only [Bool.and_eq_true, decide_eq_true_eq, bne_iff_ne] at h
  obtain ⟨hs, hl⟩ := h
  unfold FlagRun.fits FlagRun.covers clipRun
  dsimp only
  refine ⟨by omega, fun i hi => by omega⟩

/-- The runs of a standard form, before all of them make WHOLE. -/
def mergedRuns (rs : List FlagRun) : List FlagRun := mergeRuns (sortRuns ((rs.filter runHandedOn).map clipRun))

theorem standardFlags_runs (rs : List FlagRun) :
    standardFlags (.runs rs) = if mergedRuns rs = [⟨0, 588⟩] then .whole else .runs (mergedRuns rs) := rfl

theorem mergedRuns_spec (rs : List FlagRun) : Apart (mergedRuns rs) ∧ (∀ r ∈ mergedRuns rs, FlagRun.fits r)
    ∧ (mergedRuns rs).length ≤ rs.length
    ∧ ∀ i, i < 588 → ((∃ r ∈ mergedRuns rs, FlagRun.covers r i) ↔ ∃ r ∈ rs.filter runHandedOn, FlagRun.covers r i) := by
  have perm := sortRuns_perm ((rs.filter runHandedOn).map clipRun)
  have fits : ∀ r ∈ sortRuns ((rs.filter runHandedOn).map clipRun), FlagRun.fits r := by
    intro r hr
    obtain ⟨x, hx, rfl⟩ := List.mem_map.mp (perm.subset hr)
    exact (clipRun_spec (List.mem_filter.mp hx).2).1
  have covers : ∀ i, i < 588 → ((∃ r ∈ sortRuns ((rs.filter runHandedOn).map clipRun), FlagRun.covers r i)
      ↔ ∃ r ∈ rs.filter runHandedOn, FlagRun.covers r i) := by
    intro i hi
    constructor
    · rintro ⟨r, hr, hc⟩
      obtain ⟨x, hx, rfl⟩ := List.mem_map.mp (perm.subset hr)
      exact ⟨x, hx, ((clipRun_spec (List.mem_filter.mp hx).2).2 i hi).mp hc⟩
    · rintro ⟨x, hx, hc⟩
      exact ⟨clipRun x, perm.symm.subset (List.mem_map_of_mem hx), ((clipRun_spec (List.mem_filter.mp hx).2).2 i hi).mpr hc⟩
  have length : (sortRuns ((rs.filter runHandedOn).map clipRun)).length ≤ rs.length := by
    rw [perm.length_eq, List.length_map]
    exact List.length_filter_le _ _
  have ascending := ascending_sortRuns ((rs.filter runHandedOn).map clipRun)
  unfold mergedRuns mergeRuns
  generalize sortRuns ((rs.filter runHandedOn).map clipRun) = sorted at *
  cases sorted with
  | nil => exact ⟨List.Pairwise.nil, fun _ hr => absurd hr List.not_mem_nil, Nat.zero_le _, covers⟩
  | cons cur rest =>
    have hm := merged_mergeInto ascending fits
    exact ⟨hm.apart, hm.fits, hm.length.trans length, fun i hi => (hm.covers i).trans (covers i hi)⟩

/-- Runs apart that fit flag every pair only as the one run of all pairs. -/
theorem exists_unflagged {rs : List FlagRun} (ha : Apart rs) (hf : ∀ r ∈ rs, FlagRun.fits r) (h : rs ≠ [⟨0, 588⟩]) :
    ∃ i, i < 588 ∧ ∀ r ∈ rs, ¬ FlagRun.covers r i := by
  unfold FlagRun.covers
  unfold FlagRun.fits at hf
  cases rs with
  | nil => exact ⟨0, by omega, fun r hr => by cases hr⟩
  | cons r rest =>
    obtain ⟨hr, -⟩ := List.pairwise_cons.mp ha
    have fr := hf r List.mem_cons_self
    by_cases hs : r.start = 0
    · by_cases hl : r.len = 588
      · have none : rest = [] := by
          refine List.eq_nil_iff_forall_not_mem.mpr fun y hy => ?_
          have := hr y hy
          have := hf y (List.mem_cons_of_mem _ hy)
          omega
        refine absurd ?_ h
        rw [none, ← hs, ← hl]
      · refine ⟨r.len, by omega, fun y hy => ?_⟩
        obtain rfl | hy := List.mem_cons.mp hy
        · omega
        · have := hr y hy
          omega
    · refine ⟨0, by omega, fun y hy => ?_⟩
      obtain rfl | hy := List.mem_cons.mp hy
      · omega
      · have := hr y hy
        omega

/-- Settles O52: the standard form is that of `mergedRuns_spec`, WHOLE being the one run of all pairs. -/
theorem standardFlagsFlagTheSamePairs : Obligations.StandardFlagsFlagTheSamePairs := by
  unfold Obligations.StandardFlagsFlagTheSamePairs
  intro fl hwf
  cases fl with
  | whole => exact ⟨fun _ _ => rfl, fun _ _ => rfl⟩
  | runs rs =>
    obtain ⟨apart, fits, length, covers⟩ := mergedRuns_spec rs
    unfold FlagList.wf at hwf
    simp only [Bool.and_eq_true, decide_eq_true_eq, List.all_eq_true] at hwf
    obtain ⟨eight, wf⟩ := hwf
    have handed : rs.filter runHandedOn = rs := by
      refine List.filter_eq_self.mpr fun r hr => ?_
      have := wf r hr
      unfold FlagRun.wf at this
      unfold runHandedOn
      simp only [Bool.and_eq_true, decide_eq_true_eq, bne_iff_ne] at this ⊢
      omega
    rw [handed] at covers
    have same : ∀ i, i < 588 → flaggedAt (.runs (mergedRuns rs)) i = flaggedAt (.runs rs) i := by
      intro i hi
      rw [Bool.eq_iff_iff, flaggedAt_runs, flaggedAt_runs]
      exact covers i hi
    rw [standardFlags_runs]
    split
    · rename_i whole
      have all : ∀ i, i < 588 → flaggedAt (.runs rs) i = true := by
        intro i hi
        rw [← same i hi, whole, flaggedAt_runs]
        exact ⟨_, List.mem_singleton_self _, Nat.zero_le i, by simpa using hi⟩
      exact ⟨fun i hi => (all i hi).symm, all⟩
    · rename_i partly
      refine ⟨same, length.trans eight, ?_, apart, fits⟩
      obtain ⟨i, hi, none⟩ := exists_unflagged apart fits partly
      refine ⟨i, hi, Bool.eq_false_iff.mpr fun k => ?_⟩
      rw [← same i hi, flaggedAt_runs] at k
      obtain ⟨r, hr, hc⟩ := k
      exact none r hr hc

end Sys2Proof.Safety
end

-- ==== A sector that is dropped ====
section
/-! SUPPORT. A frame's event, the end of a run, and a sector that finds no room (01 R11). -/

namespace Sys2Proof.Safety

open Sys2Proof.Machine

variable {s t u : State} {z : Zone} {r q : Run}

/-! ## A frame's event -/

theorem framed_eq (s : State) : ∃ i, framed s = { beginEvent s with inp := i } := by
  unfold framed leaveAssembly
  split
  · exact ⟨_, rfl⟩
  · exact ⟨(beginEvent s).inp, rfl⟩

/-- A frame's event acts on the delivery line and INP before it acts on anything else. -/
theorem framed_only (s : State) : onlyDelivery { s with inp := (framed s).inp } (framed s) := by
  obtain ⟨i, h⟩ := framed_eq s
  have k := onlyDelivery_beginEvent s
  unfold onlyDelivery at k ⊢
  rw [h, k]

theorem frameEvent_framed {f : State → State} (h : s.inp ≠ .waitIdle) :
    frameEvent f s = .next (endEvent (f (framed s))) := by
  unfold frameEvent event
  dsimp only
  rw [beginEvent_inp, if_neg h]
  rfl

/-- As an event begins the line has taken up what waits, or nothing waits. -/
theorem beginEvent_sent (id : Nat) (s : State) :
    (beginEvent s).dlp.line.isSome = true ∨ readRunWaits id (beginEvent s) = false := by
  cases hl : (beginEvent s).dlp.line with
  | some x => exact .inl rfl
  | none =>
    right
    have hw := lineStart_idle _ hl
    have e : beginEvent s = { s with evReports := 0 } := by
      unfold beginEvent lineStart
      split
      · rfl
      · rw [hw]
    rw [e]
    unfold waitingClasses at hw
    simp only [List.append_eq_nil_iff] at hw
    have hr : s.dlp.requests = [] := by
      by_contra hn
      simp_all
    unfold readRunWaits
    rw [hr]
    rfl

theorem framed_sent (id : Nat) (s : State) : (framed s).dlp.line.isSome = true ∨ readRunWaits id (framed s) = false := by
  obtain ⟨i, h⟩ := framed_eq s
  rw [h]
  exact beginEvent_sent id s

/-! ## Health events and the scheduler's fields -/

theorem post_setRsc (r : Report) (s : State) (x : Rsc) : post r { s with rsc := x } = { post r s with rsc := x } := by
  unfold post
  rw [show levelOf r { s with rsc := x } = levelOf r s from rfl]
  dsimp only
  split <;> rfl

theorem changeRecord_setRsc (r : SurfaceRec) (change : Int) (cause : SurfaceCause) (s : State) (x : Rsc) :
    changeRecord r change cause { s with rsc := x } = { changeRecord r change cause s with rsc := x } := by
  unfold changeRecord
  dsimp only
  split
  · rfl
  · split
    · rfl
    · exact post_setRsc _ { s with sfm := s.sfm.update _ } x

theorem evictForRoom_setRsc (s : State) (x : Rsc) : evictForRoom { s with rsc := x } = { evictForRoom s with rsc := x } := by
  unfold evictForRoom
  dsimp only
  split
  · rfl
  · split
    · rfl
    · split
      · rfl
      · exact post_setRsc _ { s with sfm := s.sfm.remove _ } x

/-- A health event goes by none of the scheduler's fields (04 R73 to R77). -/
theorem healthEvent_setRsc (g : Nat) (change : Int) (cause : SurfaceCause) (s : State) (x : Rsc) :
    healthEvent g change cause { s with rsc := x } = { healthEvent g change cause s with rsc := x } := by
  unfold healthEvent
  dsimp only
  split
  · exact changeRecord_setRsc _ _ _ s x
  · split
    · unfold createRecord
      rw [evictForRoom_setRsc]
    · rfl

theorem sectorEvent_setRsc (f : SectorFrame) (s : State) (x : Rsc) :
    sectorEvent f { s with rsc := x } = { sectorEvent f s with rsc := x } := by
  unfold sectorEvent
  split
  · rfl
  · exact healthEvent_setRsc _ _ _ s x

/-- A sector's event reaches the surface map and posts reports (04 R71). -/
theorem sectorEvent_only (f : SectorFrame) (s : State) :
    onlyReports { s with sfm := (sectorEvent f s).sfm } (sectorEvent f s) := by
  unfold sectorEvent
  split
  · rfl
  · exact healthEvent_only _ _ _ s

/-! ## The end of a run -/

/-- What a grant leaves: at most the next run issued, with its READ RUN behind the requests (02 R22, R40). -/
theorem grant_spec (h : s.rsc.run = none) :
    (∀ q, (grant s).rsc.run = some q → q.id = s.rsc.nextId ∧ q.received = 0)
      ∧ (grant s).dlp.requests = s.dlp.requests ++ issued (grant s)
      ∧ (grant s).rsc.prevOwner = s.rsc.prevOwner ∧ (grant s).rsc.failures = s.rsc.failures := by
  have idle : (∀ q, s.rsc.run = some q → q.id = s.rsc.nextId ∧ q.received = 0)
      ∧ s.dlp.requests = s.dlp.requests ++ issued s ∧ s.rsc.prevOwner = s.rsc.prevOwner
      ∧ s.rsc.failures = s.rsc.failures := by
    refine ⟨fun q hq => ?_, ?_, rfl, rfl⟩
    · rw [h] at hq
      cases hq
    · unfold issued
      rw [h]
      simp
  unfold grant
  split
  · split
    · exact idle
    · refine ⟨fun q hq => ?_, rfl, rfl, rfl⟩
      cases hq
      exact ⟨rfl, rfl⟩
  · exact idle

theorem haltRun_requests (halt : Bool) (id : Nat) (s : State) : (haltRun halt id s).dlp.requests =
    if readRunWaits id s then s.dlp.requests.filter fun x => !isReadRun id x
    else if halt then s.dlp.requests ++ [.readHalt id] else s.dlp.requests := by
  unfold haltRun
  split
  · rfl
  · split <;> rfl

/-- A run that ends with nothing to follow (02 R23), its READ RUN not waiting at the idle line. -/
theorem endRun_spec (halt : Bool) (hr : s.rsc.run = some r)
    (hs : s.dlp.line.isSome = true ∨ readRunWaits r.id s = false) :
    runOver r s (endRun halt id s) ∧ (halt = true → halted r s (endRun halt id s))
      ∧ (halt = false → unhalted r s (endRun halt id s))
      ∧ (endRun halt id s).rsc.failures = s.rsc.failures ∧ onlyScheduling s (endRun halt id s) := by
  have hd : dropRun halt s = haltRun halt r.id (forgetRun r s) := by
    unfold dropRun
    rw [hr]
    dsimp only
    rw [sentByNow_eq r.id (forgetRun r s) hs]
  have rsc : (dropRun halt s).rsc = (forgetRun r s).rsc := by
    rw [hd]
    unfold haltRun
    split
    · rfl
    · split <;> rfl
  have hg := grant_spec (s := refresh (dropRun halt s)) (dropRun_run halt s)
  obtain ⟨run, requests, owner, failures⟩ := hg
  have requests : (endRun halt id s).dlp.requests = (dropRun halt s).dlp.requests ++ issued (endRun halt id s) := requests
  have work : onlyScheduling s (endRun halt id s) := by
    refine onlyScheduling_trans (onlyScheduling_dropRun halt s (hs.imp id fun k x hx => ?_)) (endRun_scheduling halt id s)
    rw [hr] at hx
    cases hx
    exact k
  refine ⟨⟨?_, fun q hq => ?_⟩, fun k => ?_, fun k => ?_, ?_, work⟩
  · exact owner.trans (congrArg Rsc.prevOwner rsc)
  · obtain ⟨h1, h2⟩ := run q hq
    exact ⟨h1.trans (show (dropRun halt s).rsc.nextId = _ by rw [rsc]; rfl), h2⟩
  · subst k
    unfold halted
    rw [requests, hd, haltRun_requests]
    simp only [if_true]
    rfl
  · subst k
    unfold unhalted
    rw [requests, hd, haltRun_requests]
    split
    · rfl
    · rename_i w
      have kept : (s.dlp.requests.filter fun x => !isReadRun r.id x) = s.dlp.requests := by
        refine List.filter_eq_self.mpr fun x hx => ?_
        by_contra n
        exact w (List.any_eq_true.mpr ⟨x, hx, by simpa using n⟩)
      rw [kept]
      simp only [Bool.false_eq_true, if_false]
      rfl
  · refine failures.trans ?_
    show (dropRun halt s).rsc.failures = _
    rw [rsc]
    rfl

/-! ## A sector with no room -/

/-- An accepted sector acts where the run and the stall timer alone have changed since its frame was taken, but for its health
event (02 R26, R29). -/
theorem takeSector_accepts {f : SectorFrame} (hr : s.rsc.run = some r) (hid : f.runId.toNat = r.id)
    (hl : r.settleLeft = 0) (hp : r.purpose ≠ .reread)
    (ha : f.readAddress = some r.expected ∨ (f.readAddress = none ∧ r.addressRead = true ∧ r.absentStreak < 4)) :
    ∃ p q stored, takeSector f s = acceptSector f p stored
        { sectorEvent f s with rsc := { s.rsc with run := some q, stall := some s.rsc.nextLimit } }
      ∧ p.owner = r.owner ∧ q.owner = r.owner ∧ q.id = r.id := by
  have taken : takeSector f s = addressedSector f r s := by
    unfold takeSector
    rw [hr]
    dsimp only
    rw [if_neg (not_not.mpr hid), if_neg (by omega), if_neg hp]
  rw [taken]
  unfold addressedSector
  obtain h | ⟨h, trusted, streak⟩ := ha
  · rw [h]
    dsimp only
    rw [if_pos rfl]
    refine ⟨r, r, { r with
      expected := r.expected + 1, received := r.received + 1, absentStreak := 0, backStreak := 0, addressRead := true },
      ?_, rfl, rfl, rfl⟩
    unfold sectorAtE rearm
    rw [sectorEvent_setRsc, ← hr]
  · rw [h]
    dsimp only
    rw [if_pos trusted]
    unfold absentTrusted
    dsimp only
    rw [if_pos streak]
    refine ⟨{ r with backStreak := 0 }, { r with backStreak := 0 }, { r with
      expected := r.expected + 1, received := r.received + 1, absentStreak := r.absentStreak + 1, backStreak := 0 },
      ?_, rfl, rfl, rfl⟩
    unfold sectorEvent
    rw [h]
    rfl

/-- A sector with no room is dropped, and its run ends with a READ HALT (01 R11). -/
theorem acceptSector_noRoom {f : SectorFrame} {p stored : Run} (h : canStore p.owner s = false) :
    acceptSector f p stored s = endRun true id (dropSector p.owner s) := by
  unfold acceptSector
  dsimp only
  rw [if_neg (by rw [h]; exact Bool.false_ne_true)]

theorem dropSector_noSlot (h : s.sst.free = []) (k : (s.lane z).entries.length < 448) : dropSector z s = setOverrun s := by
  unfold dropSector
  rw [h, if_pos (by rfl), if_pos k]

theorem dropSector_full (h : s.sst.free ≠ []) : dropSector z s = s := by
  unfold dropSector
  rw [if_neg (by simpa using h)]

theorem dropSector_both (h : s.sst.free = []) (k : 448 ≤ (s.lane z).entries.length) :
    dropSector z s = setOverrun { s with free := s.free + 1 } ∨ dropSector z s = { s with free := s.free + 1 } := by
  unfold dropSector
  rw [h, if_pos (by rfl), if_neg (by omega)]
  dsimp only
  split
  · exact .inl rfl
  · exact .inr rfl

/-- Settles O18: `dropSector` in each of the three cases, and the run's end by `endRun_spec`. -/
theorem sectorWithNoRoomIsDropped : Obligations.SectorWithNoRoomIsDropped := by
  unfold Obligations.SectorWithNoRoomIsDropped
  intro f r s hi hr hid hl hp ha ended
  have fo := framed_only s
  have frsc : (framed s).rsc = s.rsc := fo.rsc
  have flane : (framed s).lane = s.lane := fo.lane
  have fsst : (framed s).sst = s.sst := fo.sst
  obtain ⟨p, q, stored, hacc, po, qo, qid⟩ := takeSector_accepts (s := framed s) (by rw [frsc]; exact hr) hid hl hp ha
  have eo := sectorEvent_only f (framed s)
  have esst : (sectorEvent f (framed s)).sst = s.sst := eo.sst.trans fsst
  generalize hu : ({ sectorEvent f (framed s) with rsc := _ } : State) = u at hacc
  have usst : u.sst = s.sst := by rw [← hu]; exact esst
  have urun : u.rsc.run = some q := by rw [← hu]
  have uline : u.dlp.line = (framed s).dlp.line := by rw [← hu]; exact eo.line
  have urequests : u.dlp.requests = (framed s).dlp.requests := by rw [← hu]; exact eo.requests
  have noRoom : canStore p.owner u = false → exec (.sector f) s = .next (endEvent (endRun true id (dropSector r.owner u))) := by
    intro k
    rw [show exec (.sector f) s = frameEvent (takeSector f) s from rfl, frameEvent_framed hi, hacc, acceptSector_noRoom k, po]
  have full : canStore p.owner u = ((s.lane r.owner).entries.length < 448 && !s.sst.free.isEmpty) := by
    unfold canStore State.lane
    rw [usst, po]
  have ends : ∀ v : State, v.rsc = u.rsc → v.sfm = u.sfm → v.dlp.line = u.dlp.line → v.dlp.requests = u.dlp.requests →
      ended (endRun true id v) ∧ onlyScheduling v (endRun true id v) := by
    intro v vr vs vl vq
    have sent : v.dlp.line.isSome = true ∨ readRunWaits q.id v = false := by
      unfold readRunWaits
      rw [vl, vq, uline, urequests]
      exact framed_sent q.id s
    obtain ⟨h1, h2, -, h4, h5⟩ := endRun_spec true (by rw [vr]; exact urun) sent
    refine ⟨⟨⟨?_, fun x hx => ?_⟩, ?_, ?_, fun hn => ?_⟩, h5⟩
    · rw [h1.1, qo]
    · rw [(h1.2 x hx).1, (h1.2 x hx).2, vr, ← hu]
      exact ⟨rfl, rfl⟩
    · have h2 := h2 rfl
      unfold halted at h2 ⊢
      unfold readRunWaits at h2 ⊢
      rw [h2, vq, qid, urequests]
    · rw [h4, vr, ← hu]
      show (framed s).rsc.failures = _
      rw [frsc]
    · obtain ⟨-, -, -, -, sfm, -⟩ := h5
      rw [sfm, vs, ← hu]
      show (sectorEvent f (framed s)).sfm = _
      unfold sectorEvent
      rw [hn]
      exact fo.sfm
  have ulane : (u.lane r.owner).entries.length = (s.lane r.owner).entries.length := by
    unfold State.lane
    rw [usst]
  refine ⟨fun hf hlen => ?_, fun hf hlen => ?_, fun hf hlen => ?_⟩
  · obtain ⟨h1, h2⟩ := ends (setOverrun u) rfl rfl rfl rfl
    rw [← dropSector_noSlot (z := r.owner) (by rw [usst]; exact hf) (by rw [ulane]; exact hlen)] at h1 h2
    refine ⟨_, noRoom (by rw [full, hf]; simp), onlyScheduling_trans ?_ h2, h1⟩
    rw [dropSector_noSlot (by rw [usst]; exact hf) (by rw [ulane]; exact hlen), ← hu]
    exact onlyScheduling_refl _
  · have hd : dropSector r.owner u = u := dropSector_full (by rw [usst]; exact hf)
    obtain ⟨h1, h2⟩ := ends u rfl rfl rfl rfl
    refine ⟨_, noRoom (by rw [full]; simp; omega), ?_, by rw [hd]; exact h1⟩
    rw [hd]
    exact onlyScheduling_trans (by rw [← hu]; exact onlyScheduling_refl _) h2
  · refine ⟨_, noRoom (by rw [full, hf]; simp), ?_⟩
    obtain hd | hd := dropSector_both (s := u) (z := r.owner) (by rw [usst]; exact hf) (by rw [ulane]; exact hlen) <;>
      rw [hd]
    · obtain ⟨h1, h2⟩ := ends (setOverrun { u with free := u.free + 1 }) rfl rfl rfl rfl
      refine ⟨h1, .inl (onlyScheduling_trans ?_ h2)⟩
      rw [← hu]
      exact onlyScheduling_refl _
    · obtain ⟨h1, h2⟩ := ends { u with free := u.free + 1 } rfl rfl rfl rfl
      refine ⟨h1, .inr (onlyScheduling_trans ?_ h2)⟩
      rw [← hu]
      exact onlyScheduling_refl _

end Sys2Proof.Safety
end

-- ==== What follows an appended entry ====
section
/-! SUPPORT. The arming of NEXT and the zone's tests behind an appended entry (01 R8, 06 R103 to R106). -/

namespace Sys2Proof.Safety

open Sys2Proof.Machine

variable {s t u w : State} {z : Zone} {r q : Run}

/-! ## Arming -/

/-- The NEXT that is armed where the zone is not IDLE, has none, and its lane's tail stands at ACTIVE's end (06 R106). -/
def toArm (z : Zone) (s : State) : Option NextCtx :=
  match (s.ctl z).active with
  | some a =>
    if (s.ctl z).next = none ∧ (s.ctl z).state ≠ .idle ∧ (s.lane z).tail = some a.stop then chosenNext z a.track a.stop s
    else none
  | none => none

/-- The zone once it has been armed (01 R8, 06 R106). -/
def armNow (z : Zone) (s : State) : State :=
  match toArm z s with
  | none => s
  | some n => (s.setCtl z { s.ctl z with next := some n, readOverEnd := none }).setLane z ((s.lane z).armed n)

theorem armNow_none (h : toArm z s = none) : armNow z s = s := by
  unfold armNow
  rw [h]

theorem armNow_some {n : NextCtx} (h : toArm z s = some n) : armNow z s =
    (s.setCtl z { s.ctl z with next := some n, readOverEnd := none }).setLane z ((s.lane z).armed n) := by
  unfold armNow
  rw [h]

theorem armOrReadOver_of_not_pending (h : (s.lane z).boundary ≠ .pending) : armOrReadOver z s = armNow z s := by
  unfold armOrReadOver
  cases hn : (s.ctl z).next with
  | some n =>
    dsimp only
    rw [if_neg fun k => h k.1]
    have : toArm z s = none := by
      unfold toArm
      rw [hn]
      split
      · exact if_neg fun k => by cases k.1
      · rfl
    unfold armNow
    rw [this]
  | none =>
    dsimp only
    unfold armNext armNow toArm
    dsimp only
    rw [hn]
    cases (s.ctl z).active with
    | none => rfl
    | some a =>
      dsimp only
      by_cases k : (s.ctl z).state ≠ .idle ∧ (s.lane z).tail = some a.stop
      · rw [if_neg (by simp [k]), if_pos ⟨rfl, k⟩] <;> rfl
      · rw [if_pos, if_neg fun h => k h.2]
        by_contra n
        simp only [Option.isSome_none, Bool.false_eq_true, false_or, not_or, not_not] at n
        exact k n

theorem armNow_lane_other (z : Zone) (s : State) : (armNow z s).lane z.other = s.lane z.other := by
  unfold armNow
  split
  · rfl
  · rw [State.setLane_lane_other]
    rfl

theorem armNow_ctl_other (z : Zone) (s : State) : (armNow z s).ctl z.other = s.ctl z.other := by
  unfold armNow
  split
  · rfl
  · rw [State.setLane_ctl, State.setCtl_ctl_other]

/-- Arming reaches the zone's lane and controller alone. -/
theorem armNow_only (z : Zone) (s : State) : armNow z s =
    { s with sst := { s.sst with lanes := (armNow z s).sst.lanes }, zone := (armNow z s).zone } := by
  unfold armNow
  split <;> rfl

/-- Arming leaves the lane's entries and play position, and the zone's state, setup and ACTIVE. -/
theorem armNow_keeps (z : Zone) (s : State) :
    ((armNow z s).lane z).entries = (s.lane z).entries ∧ ((armNow z s).lane z).playPos = (s.lane z).playPos
      ∧ ((armNow z s).ctl z).state = (s.ctl z).state ∧ ((armNow z s).ctl z).setup = (s.ctl z).setup := by
  unfold armNow
  split
  · exact ⟨rfl, rfl, rfl, rfl⟩
  · rw [State.setLane_lane_same, State.setLane_ctl, State.setCtl_ctl_same]
    exact ⟨rfl, rfl, rfl, rfl⟩

theorem armNow_cover (z : Zone) (s : State) : cover z (armNow z s) = cover z s := by
  obtain ⟨he, hp, -, -⟩ := armNow_keeps z s
  unfold cover coverOf pairsAhead
  rw [he, hp]

/-- A NEXT chosen behind `stop` is contiguous where it starts there (06 R101). -/
theorem chosenNext_contiguous {z : Zone} {ref stop : Nat} {n : NextCtx} (h : chosenNext z ref stop s = some n) :
    n.contiguous = (n.start == stop) := by
  unfold chosenNext nextCtx at h
  obtain ⟨c, -, hc⟩ := Option.bind_eq_some_iff.mp h
  obtain ⟨b, -, rfl⟩ := Option.map_eq_some_iff.mp hc
  rfl

/-! ## The tests behind an entry -/

/-- One zone's lane, controller and concealment state have changed, and reports have been posted. -/
structure zoneOnly (z : Zone) (s t : State) : Prop where
  rest : t = { s with
    sst := { s.sst with lanes := t.sst.lanes }, zone := t.zone, cne := t.cne
    dlp := { s.dlp with reports := t.dlp.reports, reportLost := t.dlp.reportLost }
    free := t.free, evReports := t.evReports }
  lane : t.lane z.other = s.lane z.other
  ctl  : t.ctl z.other = s.ctl z.other
  conc : t.conc z.other = s.conc z.other

theorem zoneOnly_armNow (z : Zone) (s : State) : zoneOnly z s (armNow z s) := by
  have h := armNow_only z s
  exact ⟨by rw [h], armNow_lane_other z s, armNow_ctl_other z s, by rw [h]; rfl⟩

theorem zoneOnly_enterState (new : ZoneState) (cause : ZoneCause) (z : Zone) (s : State) :
    zoneOnly z s (enterState z new cause s) := by
  have h := enterState_spec z new cause s
  refine ⟨?_, ?_, ?_, ?_⟩
  · have k : enterState z new cause s = _ := h
    rw [k]
    rfl
  · rw [h.lane]
    rfl
  · rw [h.ctl, State.setConc_ctl, State.setCtl_ctl_other]
  · rw [h.conc, State.setConc_conc_other]
    rfl

theorem zoneOnly_trans (h : zoneOnly z s t) (k : zoneOnly z t u) : zoneOnly z s u :=
  ⟨by rw [k.rest, h.rest], k.lane.trans h.lane, k.ctl.trans h.ctl, k.conc.trans h.conc⟩

/-- What the zone's answer to an appended entry leaves: the lane as arming leaves it, and the zone PLAYING where its tests say
so (06 R103, R104). -/
structure Settled (z : Zone) (s t : State) : Prop where
  only  : zoneOnly z s t
  lane  : t.lane z = (armNow z s).lane z
  ctl   : t.ctl z = { (armNow z s).ctl z with state := (t.ctl z).state }
  plays : testsPlay z (armNow z s) →
    (t.ctl z).state = .playing ∧ (t.conc z).causes.starved = false ∧ (t.conc z).causes.pause = false
  stays : ¬ testsPlay z (armNow z s) → (t.ctl z).state = (s.ctl z).state

/-- The answer to an entry appended to a lane whose zone has no splice: no program ends, and no splice is abandoned. -/
theorem settled_settleTail (hb : (s.lane z).boundary ≠ .pending) (he : (s.lane z).entries ≠ []) (hs : s.splice z = none) :
    Settled z s (settleTail z s) := by
  have only := zoneOnly_armNow z s
  have keep : abandonIfMoved z (armNow z s) = armNow z s := by
    unfold abandonIfMoved
    rw [show (armNow z s).splice z = none by rw [armNow_only]; exact hs]
  have stays : runOut z (armNow z s) = false := by
    have hl : ((armNow z s).lane z).entries.isEmpty = false := by
      rw [(armNow_keeps z s).1]
      exact List.isEmpty_eq_false_iff.mpr he
    unfold runOut
    rw [hl]
    rfl
  unfold settleTail
  rw [armOrReadOver_of_not_pending hb, keep]
  by_cases h : testsPlay z (armNow z s)
  · have e : zoneTests z (armNow z s) = enterState z .playing .cover (armNow z s) := by
      unfold zoneTests
      rw [if_pos h.1, if_pos h.2]
    have k := enterState_spec z .playing .cover (armNow z s)
    rw [e]
    refine ⟨zoneOnly_trans only (zoneOnly_enterState _ _ z _), ?_, ?_, fun _ => ⟨?_, ?_, ?_⟩, fun n => absurd h n⟩
    · rw [k.lane]
      rfl
    · rw [k.ctl, State.setConc_ctl, State.setCtl_ctl_same]
    · rw [k.ctl, State.setConc_ctl, State.setCtl_ctl_same]
    · rw [k.conc, State.setConc_conc_same]
      rfl
    · rw [k.conc, State.setConc_conc_same]
      rfl
  · have e : zoneTests z (armNow z s) = armNow z s := by
      unfold zoneTests
      split
      · rename_i c
        rw [if_neg fun k => h ⟨c, k⟩, stays]
        rfl
      · rfl
    rw [e]
    exact ⟨only, rfl, rfl, fun k => absurd k h, fun _ => (armNow_keeps z s).2.2.1⟩

/-! ## A lane's tail behind an entry -/

/-- A lane stands behind an entry appended at address `a`, its zone's controller and the table as they were. -/
structure Behind (z : Zone) (a : Nat) (s u : State) : Prop where
  tail : (u.lane z).tail = some (a + 1)
  seam : (u.lane z).pendingSeam = .none
  ctl  : u.ctl z = s.ctl z
  ttb  : u.ttb = s.ttb

theorem Behind.toArm {a : Nat} (h : Behind z a s u) : toArm z u = armedAt z a s := by
  have e : ∀ c : Active, (u.lane z).tail = some c.stop ↔ a + 1 = c.stop := fun c => by rw [h.tail, Option.some_inj]
  have k : ∀ c : Active, chosenNext z c.track c.stop u = chosenNext z c.track c.stop s := fun c => by
    unfold chosenNext chooseNext nextCtx
    rw [h.ctl, h.ttb]
  unfold Safety.toArm armedAt
  rw [h.ctl]
  cases (s.ctl z).active with
  | none => rfl
  | some c =>
    dsimp only
    simp only [e, k]

/-- The lane's tail and pending seam once the zone has answered the entry are as `tailBehind` says (01 R8, R9). -/
theorem Behind.tailBehind {a : Nat} (h : Behind z a s u) (hl : t.lane z = { (armNow z u).lane z with runCount := (t.lane z).runCount })
    (hc : (t.ctl z).next = ((armNow z u).ctl z).next) : tailBehind z a s t := by
  unfold Safety.tailBehind
  rw [hl, hc, ← h.toArm]
  cases e : Safety.toArm z u with
  | none =>
    rw [armNow_none e]
    exact ⟨h.tail, h.seam⟩
  | some n =>
    rw [armNow_some e, State.setLane_lane_same, State.setLane_ctl, State.setCtl_ctl_same]
    refine ⟨rfl, ?_, ?_⟩
    · show (if n.contiguous = true then (u.lane z).tail else some n.start) = _
      rw [h.tail]
      split <;> rfl
    · show (if n.contiguous = true then (u.lane z).pendingSeam else Seam.track) = _
      rw [h.seam]

/-- The lane goes on from the address behind `a` exactly where, the zone having answered the entry, its tail stands there and it
is open (02 R31, R32). -/
theorem Behind.goesOn {a : Nat} (h : Behind z a s u) (hl : (t.lane z).tail = ((armNow z u).lane z).tail)
    (hc : t.ctl z = { (armNow z u).ctl z with state := (t.ctl z).state }) :
    goesOnBehind z a s ↔ (t.lane z).tail = some (a + 1) ∧ isOpen z t = true := by
  unfold goesOnBehind isOpen appendingEnd
  rw [hl, hc, ← h.toArm]
  dsimp only
  cases e : Safety.toArm z u with
  | none =>
    rw [armNow_none e, h.tail, h.ctl]
    simp only [true_and]
    cases (s.ctl z).next with
    | some n => simp
    | none =>
      cases (s.ctl z).readOverEnd with
      | some x => simp
      | none => cases (s.ctl z).active <;> simp
  | some n =>
    have hn : n.contiguous = (n.start == a + 1) := by
      unfold Safety.toArm at e
      split at e
      · rename_i c _
        split at e
        · rename_i hc
          have ht := hc.2.2
          rw [h.tail, Option.some_inj] at ht
          rw [chosenNext_contiguous e, ht]
        · cases e
      · cases e
    have ht : ((u.lane z).armed n).tail = if n.contiguous = true then (u.lane z).tail else some n.start := rfl
    rw [armNow_some e, State.setLane_lane_same, State.setLane_ctl, State.setCtl_ctl_same, ht, h.tail]
    dsimp only
    by_cases c : n.contiguous = true
    · simp [c]
    · have hne : n.start ≠ a + 1 := by
        rw [hn] at c
        simpa using c
      simp [c, hne]

/-! ## Cover -/

theorem coverOf_append (l : Lane) (n a : Nat) : coverOf (l.append (plainEntry l n a)) = coverOf l + 1 := by
  have h : pairsAhead (l.append (plainEntry l n a)) = pairsAhead l + 588 := by
    unfold pairsAhead Lane.append plainEntry
    cases l.entries with
    | nil => simp
    | cons e rest =>
      simp
      omega
  unfold coverOf
  rw [h]
  omega

theorem append_boundary (l : Lane) (e : Entry) : (l.append e).boundary ≠ .pending := by
  show (if l.boundary = .pending then Boundary.entry e.slot else l.boundary) ≠ .pending
  split
  · exact fun k => by cases k
  · assumption

/-! ## What a counted sector leads to -/

/-- After a sector has counted the run is complete at its count, is cut where its lane does not go on, and otherwise goes on,
unless the other zone's need preempts it (02 R23, R32, R42). -/
theorem afterCounted_spec (hr : s.rsc.run = some q) (hp : q.purpose ≠ .reread)
    (hs : s.dlp.line.isSome = true ∨ readRunWaits q.id s = false) :
    onlyScheduling s (afterCounted s) ∧ (afterCounted s).rsc.failures = s.rsc.failures
      ∧ (q.received = q.count → runOver q s (afterCounted s) ∧ unhalted q s (afterCounted s))
      ∧ (q.received ≠ q.count → ¬ ((s.lane q.owner).tail = some q.expected ∧ isOpen q.owner s = true) →
        runOver q s (afterCounted s) ∧ halted q s (afterCounted s))
      ∧ (q.received ≠ q.count → (s.lane q.owner).tail = some q.expected ∧ isOpen q.owner s = true →
        (runGoesOn q s.rsc.stall s (afterCounted s)
          ∨ (q.purpose = .refill ∧ runOver q s (afterCounted s) ∧ halted q s (afterCounted s)))
        ∧ (q.purpose = .cue ∨ (s.ctl q.owner.other).state = .idle → runGoesOn q s.rsc.stall s (afterCounted s))) := by
  by_cases hc : q.received = q.count
  · have e : afterCounted s = endRun false id s := by
      unfold afterCounted completeRun
      rw [hr]
      dsimp only
      rw [if_pos hc, if_neg hp]
    obtain ⟨h1, -, h3, h4, h5⟩ := endRun_spec false hr hs
    rw [e]
    exact ⟨h5, h4, fun _ => ⟨h1, h3 rfl⟩, fun k => absurd hc k, fun k => absurd hc k⟩
  have e : afterCounted s = review (checkOwnerLane s) := by
    unfold afterCounted
    rw [hr]
    exact if_neg hc
  by_cases ho : (s.lane q.owner).tail = some q.expected ∧ isOpen q.owner s = true
  · have k : checkOwnerLane s = s := by
      unfold checkOwnerLane
      rw [hr]
      exact if_neg fun h => h.2.elim (fun n => n ho.1) fun n => by rw [ho.2] at n; cases n
    have on : runGoesOn q s.rsc.stall s (refresh s) := ⟨hr, rfl, rfl⟩
    rw [e, k]
    by_cases hv : review s = refresh s
    · rw [hv]
      exact ⟨onlyScheduling_refresh s, rfl, fun k => absurd k hc, fun _ k => absurd ho k, fun _ _ => ⟨.inl on, fun _ => on⟩⟩
    · have cut : preempts (refresh s) = true ∧ review s = cutRun (refresh s) := by
        unfold review at hv ⊢
        dsimp only at hv ⊢
        split at hv
        · exact absurd rfl hv
        · split at hv
          · rename_i n
            rw [refresh_run, hr] at n
            cases n
          · split at hv
            · rename_i h1 h2 h3
              exact ⟨h3, by rw [if_neg h1, if_neg h2, if_pos h3]⟩
            · exact absurd rfl hv
      obtain ⟨hpre, hcut⟩ := cut
      obtain ⟨h1, h2, -, h4, h5⟩ := endRun_spec (s := refresh s) true hr hs
      have refill : q.purpose = .refill := by
        unfold preempts at hpre
        rw [refresh_run, hr] at hpre
        simp only [Bool.and_eq_true, beq_iff_eq] at hpre
        exact hpre.1.1
      have busy : (s.ctl q.owner.other).state ≠ .idle := by
        intro idle
        unfold preempts at hpre
        rw [refresh_run, hr] at hpre
        have none : demandOf q.owner.other s = none := by
          unfold demandOf
          dsimp only
          rw [if_pos (.inl idle)]
        dsimp only at hpre
        rw [refresh_demand, refresh_demand, none] at hpre
        simp at hpre
      have over1 : runOver q s (cutRun (refresh s)) := h1
      have halt : halted q s (cutRun (refresh s)) := h2 rfl
      rw [hcut]
      refine ⟨onlyScheduling_trans (onlyScheduling_refresh s) h5, h4, fun k => absurd k hc, fun _ k => absurd ho k,
        fun _ _ => ⟨.inr ⟨refill, over1, halt⟩, fun n => ?_⟩⟩
      obtain n | n := n
      · rw [refill] at n
        cases n
      · exact absurd n busy
  · have k : checkOwnerLane s = cutRun s := by
      unfold checkOwnerLane
      rw [hr]
      refine if_pos ⟨hp, ?_⟩
      by_contra n
      simp only [not_or, not_not, Bool.not_eq_false] at n
      exact ho n
    obtain ⟨h1, h2, -, h4, h5⟩ := endRun_spec true hr hs
    rw [e, k, show review (cutRun s) = refresh (endRun true id s) from review_of_fresh (fresh_endRun true id s)]
    exact ⟨onlyScheduling_trans h5 (onlyScheduling_refresh _), h4, fun k => absurd k hc, fun _ _ => ⟨h1, h2 rfl⟩,
      fun _ k => absurd k ho⟩

end Sys2Proof.Safety
end

-- ==== A sector that is stored ====
section
/-! SUPPORT. A sector accepted at E: what the store, the zones and the run are after it (02 R26). -/

namespace Sys2Proof.Safety

open Sys2Proof.Machine

variable {s t u v w : State} {z : Zone} {r q : Run}

/-! ## Health events and the delivery line's marks -/

/-- What a health event makes of the map goes by the map alone. -/
theorem healthEvent_sfm_of (g : Nat) (change : Int) (cause : SurfaceCause) (h : u.sfm = s.sfm) :
    (healthEvent g change cause u).sfm = (healthEvent g change cause s).sfm := by
  have change_sfm : ∀ (r : SurfaceRec) (x : State), (changeRecord r change cause x).sfm
      = if countAfter r.count change = 0 then x.sfm.remove r.granule
        else x.sfm.update ⟨r.granule, countAfter r.count change, stateAfter r.state (countAfter r.count change) change⟩ := by
    intro r x
    unfold changeRecord
    dsimp only
    split
    · rfl
    · split
      · rfl
      · rw [post_sfm]
  have evict_sfm : (evictForRoom u).sfm = (evictForRoom s).sfm := by
    unfold evictForRoom
    rw [h]
    split
    · exact h
    · split
      · exact h
      · dsimp only
        split
        · rfl
        · rw [post_sfm, post_sfm]
  unfold healthEvent
  rw [h]
  split
  · rw [change_sfm, change_sfm, h]
  · split
    · unfold createRecord
      dsimp only
      rw [evict_sfm]
    · exact h

theorem sectorEvent_sfm_of (f : SectorFrame) (h : u.sfm = s.sfm) : (sectorEvent f u).sfm = (sectorEvent f s).sfm := by
  unfold sectorEvent
  split
  · exact h
  · exact healthEvent_sfm_of _ _ _ h

theorem startFrame_overrunShown (c : LineClass) (h : s.dlp.overrunShown = true) :
    (startFrame c s).dlp.overrunShown = true := by
  unfold startFrame
  cases c with
  | audio z =>
    dsimp only
    split <;> exact h
  | request =>
    dsimp only
    split <;> exact h
  | report =>
    dsimp only
    split
    · exact h
    · split
      · unfold statusShown
        dsimp only
        rw [h]
        rfl
      · exact h

/-- A shown OVERRUN stays shown as an event begins (11 R165). -/
theorem framed_overrunShown (h : s.dlp.overrunShown = true) : (framed s).dlp.overrunShown = true := by
  have k : (beginEvent s).dlp.overrunShown = true := by
    unfold beginEvent lineStart
    split
    · exact h
    · split
      · exact h
      · exact startFrame_overrunShown _ h
      · exact startFrame_overrunShown _ h
  obtain ⟨i, e⟩ := framed_eq s
  rw [e]
  exact k

/-! ## The zones' answer -/

theorem armNow_congr (hl : t.lane z = s.lane z) (hc : t.ctl z = s.ctl z) (ht : t.ttb = s.ttb) :
    (armNow z t).lane z = (armNow z s).lane z ∧ (armNow z t).ctl z = (armNow z s).ctl z := by
  have e : toArm z t = toArm z s := by
    unfold toArm chosenNext chooseNext nextCtx
    rw [hl, hc, ht]
  cases k : toArm z s with
  | none =>
    rw [armNow_none k, armNow_none (e.trans k)]
    exact ⟨hl, hc⟩
  | some n =>
    rw [armNow_some k, armNow_some (e.trans k)]
    simp only [State.setLane_lane_same, State.setLane_ctl, State.setCtl_ctl_same, hl, hc, and_self]

/-- What the owner zone `x` and, where its lane was joined, the other zone have made of the stored entry. -/
structure Answered (x : Zone) (joined : Bool) (v w : State) : Prop where
  rest  : w = { v with
    sst := { v.sst with lanes := w.sst.lanes }, zone := w.zone, cne := w.cne
    dlp := { v.dlp with reports := w.dlp.reports, reportLost := w.dlp.reportLost }
    free := w.free, evReports := w.evReports }
  lane  : w.lane x = (armNow x v).lane x
  ctl   : w.ctl x = { (armNow x v).ctl x with state := (w.ctl x).state }
  plays : testsPlay x (armNow x v) →
    (w.ctl x).state = .playing ∧ (w.conc x).causes.starved = false ∧ (w.conc x).causes.pause = false
  stays : ¬ testsPlay x (armNow x v) → (w.ctl x).state = (v.ctl x).state
  join  : joined = true → w.lane x.other = (armNow x.other v).lane x.other
    ∧ (w.ctl x.other).next = ((armNow x.other v).ctl x.other).next
  alone : joined = false → w.lane x.other = v.lane x.other ∧ w.ctl x.other = v.ctl x.other

/-- A lane whose zone answers an entry just appended to it: the entry stands there, no boundary is pending, no splice is. -/
def answers (z : Zone) (v : State) : Prop :=
  (v.lane z).boundary ≠ .pending ∧ (v.lane z).entries ≠ [] ∧ v.splice z = none

theorem answered {x : Zone} {joined : Bool} (hx : answers x v) (hy : joined = true → answers x.other v) :
    Answered x joined v (if joined then settleTail x.other (settleTail x v) else settleTail x v) := by
  obtain ⟨hb, he, hs⟩ := hx
  have one := settled_settleTail hb he hs
  have only := one.only
  generalize settleTail x v = t at one only
  cases joined with
  | false =>
    exact ⟨only.rest, one.lane, one.ctl, one.plays, one.stays, fun k => Bool.noConfusion k, fun _ => ⟨only.lane, only.ctl⟩⟩
  | true =>
    obtain ⟨hb', he', hs'⟩ := hy rfl
    have splice : t.splice = v.splice := by
      rw [only.rest]
      rfl
    have two := settled_settleTail (z := x.other) (s := t) (by rw [only.lane]; exact hb') (by rw [only.lane]; exact he')
      (by rw [splice]; exact hs')
    have only' := two.only
    have ttb : t.ttb = v.ttb := by rw [only.rest]
    obtain ⟨al, ac⟩ := armNow_congr (z := x.other) only.lane only.ctl ttb
    rw [if_pos rfl]
    generalize settleTail x.other t = w at two only'
    have back := only'.lane
    have backCtl := only'.ctl
    have backConc := only'.conc
    rw [Zone.other_other] at back backCtl backConc
    refine ⟨by rw [only'.rest, only.rest], by rw [back, one.lane], ?_, fun k => ?_, fun k => ?_, fun _ => ⟨?_, ?_⟩,
      fun k => Bool.noConfusion k⟩
    · rw [backCtl]
      exact one.ctl
    · rw [backCtl, backConc]
      exact one.plays k
    · rw [backCtl]
      exact one.stays k
    · rw [two.lane, al]
    · rw [two.ctl, ac]

/-! ## The stored sector -/

theorem joins_congr {y : Zone} {a : Nat} (hl : u.lane y = s.lane y) (hc : u.ctl = s.ctl) (hs : u.splice = s.splice) :
    joins y a u = joins y a s := by
  unfold joins cover withinTracks
  rw [hl, hc, hs]

/-- Zone `z` has been tested behind an entry that raised its cover by one (06 R103, R104). -/
theorem testedBehind_of_settled {a : Nat} (h : Behind z a s u)
    (hc : cover z u = cover z s + 1)
    (plays : testsPlay z (armNow z u) →
      (t.ctl z).state = .playing ∧ (t.conc z).causes.starved = false ∧ (t.conc z).causes.pause = false)
    (stays : ¬ testsPlay z (armNow z u) → (t.ctl z).state = (u.ctl z).state) : testedBehind z a s t := by
  obtain ⟨-, -, kst, ksu⟩ := armNow_keeps z u
  intro waits
  have waits' : ((armNow z u).ctl z).state = .cueing ∨ ((armNow z u).ctl z).state = .starved := by
    rw [kst, h.ctl]
    exact waits
  refine ⟨fun k => plays ⟨waits', .inl ?_⟩, fun k hn ho hne hstop => ?_⟩
  · rw [ksu, armNow_cover, hc, h.ctl]
    exact k
  · rw [stays, h.ctl]
    have unarmed : toArm z u = none := by
      rw [h.toArm]
      unfold armedAt
      split
      · rename_i c hc'
        exact if_neg fun x => hstop c hc' x.2.2
      · rfl
    rw [armNow_none unarmed]
    rintro ⟨-, m⟩
    rw [hc, h.ctl] at m
    obtain m | m := m
    · omega
    · obtain ⟨e, hend⟩ := Option.ne_none_iff_exists'.mp hne
      have hopen : isOpen z u = true := by
        have : appendingEnd z u = appendingEnd z s := by
          unfold appendingEnd
          rw [h.ctl]
        unfold isOpen
        rw [h.tail, this, hend]
        exact decide_eq_true (ho e hend)
      unfold holdsRest at m
      rw [hopen, h.ctl, hn] at m
      split at m
      · cases m
      · simp at m

/-- The sector `rec` is stored at the E of the run `r` in slot `n`, the run being `q`, and the zones have yet to answer (01 R2,
R9, R10, R12; 02 R26, R36). -/
structure Stored (r q : Run) (rec : Sector) (n : Nat) (rest : List Nat) (s v : State) : Prop where
  run      : v.rsc.run = some q
  stall    : v.rsc.stall = some s.rsc.nextLimit
  nextId   : v.rsc.nextId = s.rsc.nextId
  failures : v.rsc.failures = 0
  line     : v.dlp.line = (framed s).dlp.line
  requests : v.dlp.requests = (framed s).dlp.requests
  overrun  : s.dlp.overrunShown = true → v.dlp.overrun = false
  free     : v.sst.free = rest
  slot     : ∀ m, v.slot m = if m = n then ⟨rec, if joins r.owner.other r.expected s then 2 else 1⟩ else s.slot m
  own      : v.lane r.owner = (s.lane r.owner).append (plainEntry (s.lane r.owner) n r.expected)
  other    : v.lane r.owner.other = Lane.joined (s.lane r.owner.other) n r.expected (joins r.owner.other r.expected s)
  ctl      : v.ctl = s.ctl
  splice   : v.splice = s.splice
  ttb      : v.ttb = s.ttb
  mmn      : v.mmn = s.mmn
  cmi      : v.cmi = s.cmi
  inp      : v.inp = (framed s).inp

/-- The state that the zones answer once a sector is stored. -/
def storedState (f : SectorFrame) (r q : Run) (u : State) : State :=
  clearFailures ((storeSector r.owner (recordOf f) r.expected u).setRun (some q))

/-- The state on which an accepted sector acts: its frame has been taken and its health event made, the scheduler's fields being
`x` (02 R24, R34). -/
def accepted (f : SectorFrame) (x : Rsc) (s : State) : State := { sectorEvent f (framed s) with rsc := x }

theorem stored_storedState {f : SectorFrame} {x : Rsc} {n : Nat} {rest : List Nat} (q : Run)
    (hstall : x.stall = some s.rsc.nextLimit) (hnext : x.nextId = s.rsc.nextId)
    (hf : s.sst.free = n :: rest) (hn : n < s.sst.slots.length) :
    Stored r q ⟨f.readAddress, standardFlags f.flags, f.pairs⟩ n rest s
        (storedState f r q (accepted f x s))
      ∧ (storedState f r q (accepted f x s)).sfm = (sectorEvent f s).sfm := by
  have fo := framed_only s
  have eo := sectorEvent_only f (framed s)
  have usst : (sectorEvent f (framed s)).sst = s.sst := eo.sst.trans fo.sst
  have uctl : (sectorEvent f (framed s)).ctl = s.ctl := eo.ctl.trans fo.ctl
  have usplice : (sectorEvent f (framed s)).splice = s.splice := eo.splice.trans fo.splice
  have ushown : s.dlp.overrunShown = true → (sectorEvent f (framed s)).dlp.overrunShown = true := by
    intro k
    rw [show sectorEvent f (framed s) = _ from eo]
    exact framed_overrunShown k
  generalize hu : accepted f x s = u
  have lane : ∀ y, u.lane y = s.lane y := fun y => by
    rw [← hu]
    exact (congrFun eo.lane y).trans (congrFun fo.lane y)
  have join : joins r.owner.other r.expected u = joins r.owner.other r.expected s :=
    joins_congr (lane _) (by rw [← hu]; exact uctl) (by rw [← hu]; exact usplice)
  have free : u.sst.free = n :: rest := by rw [← hu]; exact usst ▸ hf
  have slots : n < u.sst.slots.length := by rw [← hu]; exact usst ▸ hn
  have slot : u.slot = s.slot := slot_of_slots (by rw [← hu]; exact congrArg Sst.slots usst)
  have stored := storeSector_only r.owner (recordOf f) r.expected u
  unfold storedState
  refine ⟨⟨rfl, ?_, ?_, rfl, ?_, ?_, fun k => ?_, storeSector_free free, fun m => ?_, ?_, ?_, ?_, ?_, ?_, ?_, ?_, ?_⟩, ?_⟩
  · show (storeSector r.owner (recordOf f) r.expected u).rsc.stall = _
    rw [stored, ← hu]
    exact hstall
  · show (storeSector r.owner (recordOf f) r.expected u).rsc.nextId = _
    rw [stored, ← hu]
    exact hnext
  · show (storeSector r.owner (recordOf f) r.expected u).dlp.line = _
    rw [stored, ← hu]
    exact eo.line
  · show (storeSector r.owner (recordOf f) r.expected u).dlp.requests = _
    rw [stored, ← hu]
    exact eo.requests
  · exact storeSector_overrun free (by rw [← hu]; exact ushown k)
  · show (storeSector r.owner (recordOf f) r.expected u).slot m = _
    rw [storeSector_slot free slots, join, slot]
    rfl
  · show (storeSector r.owner (recordOf f) r.expected u).lane r.owner = _
    rw [storeSector_lane_same free, lane]
  · show (storeSector r.owner (recordOf f) r.expected u).lane r.owner.other = _
    rw [storeSector_lane_other free, lane, join]
  · show (storeSector r.owner (recordOf f) r.expected u).ctl = _
    rw [stored, ← hu]
    exact uctl
  · show (storeSector r.owner (recordOf f) r.expected u).splice = _
    rw [stored, ← hu]
    exact usplice
  · show (storeSector r.owner (recordOf f) r.expected u).ttb = _
    rw [stored, ← hu]
    exact eo.ttb.trans fo.ttb
  · show (storeSector r.owner (recordOf f) r.expected u).mmn = _
    rw [stored, ← hu]
    exact eo.mmn.trans fo.mmn
  · show (storeSector r.owner (recordOf f) r.expected u).cmi = _
    rw [stored, ← hu]
    exact eo.cmi.trans fo.cmi
  · show (storeSector r.owner (recordOf f) r.expected u).inp = _
    rw [stored, ← hu]
    exact eo.inp
  · show (storeSector r.owner (recordOf f) r.expected u).sfm = _
    rw [stored, ← hu]
    exact sectorEvent_sfm_of f fo.sfm

namespace Stored

variable {rec : Sector} {n : Nat} {rest : List Nat} (h : Stored r q rec n rest s v)
include h

theorem behindOwn : Behind r.owner r.expected s v :=
  ⟨by rw [h.own]; rfl, by rw [h.own]; rfl, by rw [h.ctl], h.ttb⟩

theorem behindOther (k : joins r.owner.other r.expected s = true) : Behind r.owner.other r.expected s v :=
  ⟨by rw [h.other, k]; rfl, by rw [h.other, k]; rfl, by rw [h.ctl], h.ttb⟩

theorem answered (hs : s.splice r.owner = none) :
    Answered r.owner (joins r.owner.other r.expected s) v
      (if joins r.owner.other r.expected s then settleTail r.owner.other (settleTail r.owner v)
        else settleTail r.owner v) := by
  refine Safety.answered ⟨?_, ?_, by rw [h.splice]; exact hs⟩ fun k => ⟨?_, ?_, ?_⟩
  · rw [h.own]
    exact append_boundary _ _
  · rw [h.own]
    simp [Lane.append]
  · rw [h.other, k]
    exact append_boundary _ _
  · rw [h.other, k]
    simp [Lane.joined, Lane.append]
  · rw [h.splice]
    unfold joins at k
    simp only [Bool.and_eq_true, Option.isNone_iff_eq_none] at k
    exact k.1.1.1.1.2

/-- All that `storedAtE` says, once the zones have answered and the sector has counted. -/
theorem storedAtE (ha : Answered r.owner (joins r.owner.other r.expected s) v w) (hp : r.purpose ≠ .reread)
    (hqo : q.owner = r.owner) (hqi : q.id = r.id) (hqp : q.purpose = r.purpose) (hqe : q.expected = r.expected + 1) :
    Safety.storedAtE r q rec n rest s (afterCounted w) ∧ (afterCounted w).sfm = v.sfm := by
  have run : w.rsc.run = some q := by rw [ha.rest]; exact h.run
  have line : w.dlp.line = (framed s).dlp.line := by rw [ha.rest]; exact h.line
  have requests : w.dlp.requests = (framed s).dlp.requests := by rw [ha.rest]; exact h.requests
  have nextId : w.rsc.nextId = (framed s).rsc.nextId := by
    rw [ha.rest, (framed_only s).rsc]
    exact h.nextId
  have stall : w.rsc.stall = some s.rsc.nextLimit := by rw [ha.rest]; exact h.stall
  have sent : w.dlp.line.isSome = true ∨ readRunWaits q.id w = false := by
    unfold readRunWaits
    rw [line, requests]
    exact framed_sent q.id s
  obtain ⟨work, failures, whole, cut, on⟩ := afterCounted_spec run (by rw [hqp]; exact hp) sent
  generalize afterCounted w = t at *
  have over1 : runOver q w t → runOver r (framed s) t := fun k => by
    refine ⟨by rw [k.1, hqo], fun x hx => ?_⟩
    rw [← nextId]
    exact k.2 x hx
  have halt : halted q w t → halted r (framed s) t := fun k => by
    unfold halted readRunWaits at k ⊢
    rw [k, requests, hqi]
  have unhalt : unhalted q w t → unhalted r (framed s) t := fun k => by
    unfold unhalted at k ⊢
    rw [k, requests, hqi]
  have goes : runGoesOn q w.rsc.stall w t → runGoesOn q (some s.rsc.nextLimit) (framed s) t := fun ⟨k1, k2, k3⟩ =>
    ⟨k1, k2.trans stall, k3.trans requests⟩
  obtain ⟨⟨wslots, wfree, wlane⟩, ⟨wttb, wmmn⟩, ⟨winp, wcmi, -⟩, wdlp, wsfm, wcne, wzone, -⟩ := work
  have tctl : t.ctl = w.ctl := by
    unfold State.ctl
    rw [wzone]
  have tconc : t.conc = w.conc := by
    unfold State.conc
    rw [wcne]
  have tslot : t.slot = v.slot := slot_of_slots (by rw [wslots, ha.rest])
  have laneOwn : t.lane r.owner = { (armNow r.owner v).lane r.owner with runCount := (t.lane r.owner).runCount } := by
    rw [wlane r.owner, ha.lane]
  have ctlOther : (s.ctl r.owner.other).state = .idle → (w.ctl q.owner.other).state = .idle := by
    intro idle
    have no : joins r.owner.other r.expected s = false := by
      unfold joins
      rw [idle]
      rfl
    rw [hqo, (ha.alone no).2, h.ctl]
    exact idle
  have goesIff : goesOnBehind r.owner r.expected s ↔ (w.lane q.owner).tail = some q.expected ∧ isOpen q.owner w = true := by
    rw [hqo, hqe]
    exact h.behindOwn.goesOn (by rw [ha.lane]) ha.ctl
  refine ⟨⟨?_, ?_, fun m hm => ?_, ?_, ?_, ?_, fun k => ?_, ⟨fun k => ?_, fun k1 k2 => ?_, fun k1 k2 => ?_⟩, ?_,
    ?_, fun k => ?_, ⟨?_, ?_⟩, ?_, ?_⟩, by rw [wsfm, ha.rest]⟩
  · rw [wfree, ha.rest]
    exact h.free
  · rw [tslot, h.slot, if_pos rfl]
  · rw [tslot, h.slot, if_neg hm]
  · rw [laneOwn]
    show ((armNow r.owner v).lane r.owner).entries = _
    rw [(armNow_keeps r.owner v).1, h.own]
    rfl
  · rw [wlane r.owner.other]
    show (w.lane r.owner.other).entries = _
    cases k : joins r.owner.other r.expected s with
    | true =>
      rw [(ha.join k).1, (armNow_keeps r.owner.other v).1, h.other, k]
      rfl
    | false =>
      rw [(ha.alone k).1, h.other, k]
      simp [Lane.joined]
  · exact h.behindOwn.tailBehind laneOwn (by rw [tctl, ha.ctl])
  · exact (h.behindOther k).tailBehind (by rw [wlane r.owner.other, (ha.join k).1]) (by rw [tctl, (ha.join k).2])
  · exact ⟨over1 (whole k).1, unhalt (whole k).2⟩
  · obtain ⟨c1, c2⟩ := cut k1 fun n => k2 (goesIff.mpr n)
    exact ⟨over1 c1, halt c2⟩
  · obtain ⟨c1, c2⟩ := on k1 (goesIff.mp k2)
    refine ⟨c1.imp goes fun ⟨d1, d2, d3⟩ => ⟨hqp ▸ d1, over1 d2, halt d3⟩, fun n => goes (c2 ?_)⟩
    exact n.imp (fun n => hqp.trans n) ctlOther
  · refine testedBehind_of_settled h.behindOwn ?_ ?_ ?_
    · unfold cover
      rw [h.own, coverOf_append]
    · rw [tctl, tconc]
      exact ha.plays
    · rw [tctl]
      exact ha.stays
  · rw [failures, ha.rest]
    exact h.failures
  · have e : t.dlp.overrun = w.dlp.overrun := by rw [show t.dlp = _ from wdlp]
    rw [e, ha.rest]
    exact h.overrun k
  · rw [wttb, ha.rest]
    exact h.ttb
  · rw [wmmn, ha.rest]
    exact h.mmn
  · rw [wcmi, ha.rest]
    exact h.cmi
  · rw [winp, ha.rest]
    exact h.inp

end Stored

/-- An accepted sector with room for it is stored, answered by the zones, and counted (02 R26, R29). -/
theorem acceptSector_room {f : SectorFrame} {p : Run} {n : Nat} {rest : List Nat} (hf : u.sst.free = n :: rest)
    (ho : p.owner = r.owner) (he : p.expected = r.expected) (h : (u.lane r.owner).entries.length < 448) :
    acceptSector f p q u = afterCounted (if joins r.owner.other r.expected u
      then settleTail r.owner.other (settleTail r.owner (storedState f r q u))
      else settleTail r.owner (storedState f r q u)) := by
  have room : canStore r.owner u = true := by
    unfold canStore
    rw [hf]
    simpa using h
  have grown : ((storeSector r.owner (recordOf f) r.expected u).lane r.owner.other).entries.length
      != (u.lane r.owner.other).entries.length ↔ joins r.owner.other r.expected u = true := by
    rw [storeSector_lane_other hf]
    unfold Lane.joined
    cases joins r.owner.other r.expected u with
    | false => simp
    | true => simp [Lane.append]
  unfold acceptSector storedState
  dsimp only
  rw [ho, he, if_pos room]
  simp only [grown]

/-- A sector accepted at E with room for it (02 R26, R29): all that `storedAtE` says, and its health event. -/
theorem storedAtE_acceptSector {f : SectorFrame} {p : Run} {x : Rsc} {n : Nat} {rest : List Nat}
    (hstall : x.stall = some s.rsc.nextLimit) (hnext : x.nextId = s.rsc.nextId)
    (hpo : p.owner = r.owner) (hpe : p.expected = r.expected) (hp : r.purpose ≠ .reread)
    (hqo : q.owner = r.owner) (hqi : q.id = r.id) (hqp : q.purpose = r.purpose) (hqe : q.expected = r.expected + 1)
    (hf : s.sst.free = n :: rest) (hn : n < s.sst.slots.length) (hroom : (s.lane r.owner).entries.length < 448)
    (hs : s.splice r.owner = none) :
    storedAtE r q ⟨f.readAddress, standardFlags f.flags, f.pairs⟩ n rest s
        (acceptSector f p q (accepted f x s))
      ∧ (acceptSector f p q (accepted f x s)).sfm = (sectorEvent f s).sfm := by
  obtain ⟨h, hsfm⟩ := stored_storedState (f := f) (r := r) q hstall hnext hf hn
  have fo := framed_only s
  have eo := sectorEvent_only f (framed s)
  have free : (accepted f x s).sst.free = n :: rest := (congrArg Sst.free (eo.sst.trans fo.sst)).trans hf
  have lane : ∀ y, (accepted f x s).lane y = s.lane y := fun y => (congrFun eo.lane y).trans (congrFun fo.lane y)
  have join : joins r.owner.other r.expected (accepted f x s) = joins r.owner.other r.expected s :=
    joins_congr (lane _) (eo.ctl.trans fo.ctl) (eo.splice.trans fo.splice)
  rw [acceptSector_room free hpo hpe (by rw [lane]; exact hroom), join]
  obtain ⟨h1, h2⟩ := h.storedAtE (h.answered hs) hp hqo hqi hqp hqe
  exact ⟨h1, h2.trans hsfm⟩

/-- Settles O17: the sector is accepted at E (`sectorAtE`), and `storedAtE_acceptSector` says what comes of it. -/
theorem acceptedSectorIsStored : Obligations.AcceptedSectorIsStored := by
  unfold Obligations.AcceptedSectorIsStored
  intro f r n rest s hi hr hid hl hp ha hf hn hroom hs
  have run : (framed s).rsc = s.rsc := (framed_only s).rsc
  have taken : takeSector f (framed s) = acceptSector f r { r with
      expected := r.expected + 1, received := r.received + 1, absentStreak := 0, backStreak := 0, addressRead := true }
      (accepted f { s.rsc with stall := some s.rsc.nextLimit } s) := by
    unfold takeSector addressedSector sectorAtE accepted rearm
    rw [run, hr, ha, sectorEvent_setRsc]
    dsimp only
    rw [if_neg (not_not.mpr hid), if_neg (by omega), if_neg hp, if_pos rfl]
  refine ⟨takeSector f (framed s), frameEvent_framed hi, ?_⟩
  rw [taken]
  exact storedAtE_acceptSector rfl rfl rfl rfl hp rfl rfl rfl rfl hf hn hroom hs

end Sys2Proof.Safety
end

-- ==== One pair of a frame ====
section
/-! SUPPORT. What the production of one pair comes to (05 R84, R85): a lane pair, a held pair, a silent one. -/

namespace Sys2Proof.Safety

open Sys2Proof.Machine

variable {s t u w : State} {z : Zone} {e : Entry} {rest : List Entry}

/-! ## Arithmetic -/

theorem gainSample_full (x : Sample) : gainSample x 256 = x := by
  unfold gainSample
  rw [show ((256 : Nat) : Int) = 256 from rfl, Int.mul_tdiv_cancel _ (by decide), BitVec.ofInt_toInt]

/-- At full gain a pair is given out unchanged (05 R92). -/
theorem gainPair_full (p : SamplePair) : gainPair p 256 = p := by
  unfold gainPair
  rw [gainSample_full, gainSample_full]

/-- At no gain a pair is silent (05 R92). -/
theorem gainPair_zero (p : SamplePair) : gainPair p 0 = ⟨0#16, 0#16⟩ := by
  unfold gainPair gainSample
  simp

theorem stepGain_full (step : Nat) : stepGain 256 256 step = 256 := by
  unfold stepGain
  rw [if_neg (lt_irrefl 256)]
  omega

/-- No SEAM where no later entry stands behind a GAP or UNVERIFIED seam (05 R96). -/
theorem seamNear_false (fade : Nat) {fs : List Entry} (d : Nat) (h : ∀ f ∈ fs, f.seam ≠ .gap ∧ f.seam ≠ .unverified) :
    seamNear fade fs d = false := by
  induction fs generalizing d with
  | nil => rfl
  | cons f fs ih =>
    obtain ⟨hg, hu⟩ := h f List.mem_cons_self
    unfold seamNear
    split
    · rfl
    · rw [if_neg fun k => k.elim hg hu]
      exact ih _ fun x hx => h x (List.mem_cons_of_mem _ hx)

/-! ## What a pair leaves of the rest of the machine -/

theorem zoneKept_trans (h : zoneKept z s t) (k : zoneKept z t u) : zoneKept z s u := by
  obtain ⟨h1, h2, h3⟩ := h
  obtain ⟨k1, k2, k3⟩ := k
  refine ⟨k1.trans h1, k2.trans h2, ?_⟩
  unfold laneKept at *
  rw [k3, h3]

/-- The zone alone has acted, its controller having changed but in its state: the other zone, the disc's blocks and the surface map
are as they were. -/
structure ownTurn (z : Zone) (s t : State) : Prop where
  ctl   : t.ctl z = { s.ctl z with state := (t.ctl z).state }
  other : zoneKept z.other s t
  disc  : sameDisc s t
  sfm   : t.sfm = s.sfm

theorem ownTurn_trans (h : ownTurn z s t) (k : ownTurn z t u) : ownTurn z s u :=
  ⟨by rw [k.ctl, h.ctl], zoneKept_trans h.other k.other, ⟨k.disc.1.trans h.disc.1, k.disc.2.trans h.disc.2⟩,
    k.sfm.trans h.sfm⟩

theorem keepsPlay.ownTurn (h : keepsPlay s t) (z : Zone) : ownTurn z s t :=
  ⟨by rw [(h.zoneKept z).1], h.zoneKept z.other, ⟨h.ttb, h.mmn⟩, h.sfm⟩

theorem ownTurn_setConc (z : Zone) (c : Cne) (s : State) : ownTurn z s (s.setConc z c) :=
  ⟨rfl, ⟨rfl, State.setConc_conc_other s z c, rfl⟩, ⟨rfl, rfl⟩, rfl⟩

theorem ownTurn_enterState (new : ZoneState) (cause : ZoneCause) (z : Zone) (s : State) :
    ownTurn z s (enterState z new cause s) := by
  have h := enterState_spec z new cause s
  have k := zoneOnly_enterState new cause z s
  refine ⟨?_, ⟨k.ctl, k.conc, ?_⟩, ⟨h.ttb, h.mmn⟩, h.sfm⟩
  · rw [h.ctl, State.setConc_ctl, State.setCtl_ctl_same]
  · unfold laneKept
    rw [k.lane]

theorem ownTurn_takePair (z : Zone) (s : State) : ownTurn z s (takePair z s) := by
  have h := takePair_only z s
  refine ⟨by rw [h]; rfl, ⟨by rw [h]; rfl, by rw [h]; rfl, ?_⟩, ⟨by rw [h], by rw [h]⟩, by rw [h]⟩
  unfold laneKept
  rw [takePair_lane_other]

/-- What a zone has done in its own turn before it goes to IDLE is not seen of it after. -/
theorem ownTurn.idled (h : ownTurn z s t) (k : idled z t u) : idled z s u := by
  obtain ⟨k1, k2, k3, k4, k5, k6, k7⟩ := k
  exact ⟨k1, by rw [k2, h.ctl], k3, k4, zoneKept_trans h.other k5, ⟨k6.1.trans h.disc.1, k6.2.trans h.disc.2⟩,
    k7.trans h.sfm⟩

/-- The scheduler's work leaves an IDLE zone as it is. -/
theorem idled_scheduled (h : idled z s t) (k : keepsPlay t u) (q : quiet t u) : idled z s u := by
  obtain ⟨h1, h2, h3, h4, h5, h6, h7⟩ := h
  obtain ⟨k1, k2, k3⟩ := k.zoneKept z
  refine ⟨?_, k1.trans h2, k2.trans h3, (q z).1 h4, zoneKept_trans h5 (k.zoneKept z.other),
    ⟨k.ttb.trans h6.1, k.mmn.trans h6.2⟩, k.sfm.trans h7⟩
  unfold laneKept at k3
  rw [k3, (q z).2 (by rw [h1]; rfl), h1]
  rfl

theorem idled_enterIdle (cause : ZoneCause) (h : onlyReports (flushWith z s) w) : idled z s (enterIdle z cause w) := by
  obtain ⟨h1, h2, h3, h4, h5, h6, h7⟩ := idled_of_flush z cause s
  have a := enterIdle_spec z cause (flushWith z s)
  have b := enterIdle_spec z cause w
  have lane : (enterIdle z cause w).lane = (enterIdle z cause (flushWith z s)).lane := by
    rw [a.lane, b.lane]
    exact h.lane
  have ctl : (enterIdle z cause w).ctl = (enterIdle z cause (flushWith z s)).ctl := by
    rw [a.ctl, b.ctl, State.setConc_ctl, State.setConc_ctl]
    unfold State.setCtl State.ctl
    dsimp only
    rw [h.zone]
  have conc : (enterIdle z cause w).conc = (enterIdle z cause (flushWith z s)).conc := by
    rw [a.conc, b.conc]
    unfold State.setConc State.conc State.setCtl
    dsimp only
    rw [h.cne]
  refine ⟨by rw [lane]; exact h1, by rw [ctl]; exact h2, by rw [conc]; exact h3, ?_, ?_, ⟨?_, ?_⟩, ?_⟩
  · rw [b.splice]
    show w.splice z = none
    rw [h.splice]
    rw [a.splice] at h4
    exact h4
  · obtain ⟨o1, o2, o3⟩ := h5
    refine ⟨by rw [ctl]; exact o1, by rw [conc]; exact o2, ?_⟩
    unfold laneKept at *
    rw [lane]
    exact o3
  · rw [← h6.1, a.ttb, b.ttb]
    exact h.ttb
  · rw [← h6.2, a.mmn, b.mmn]
    exact h.mmn
  · rw [← h7, a.sfm, b.sfm]
    exact h.sfm

/-- A program that ends leaves the zone in IDLE (06 R105). -/
theorem idled_endProgram (z : Zone) (s : State) : idled z s (endProgram z s) :=
  idled_enterIdle .endOfProgram (onlyReports_post _ _)

/-- A stop fade that is done leaves the zone in IDLE (06 R114). -/
theorem idled_stopDone (z : Zone) (s : State) : idled z s (stopDone z s) :=
  ((onlyReports_inOrder s).keepsPlay.ownTurn z).idled (idled_of_flush z .stop (inOrder s))

/-- An IDLE zone's stop fade is over. -/
theorem stopTest_idled (h : idled z s t) : stopTest z t = t := by
  obtain ⟨-, -, conc, -⟩ := h
  unfold stopTest
  rw [if_neg]
  rw [conc]
  exact fun k => Bool.noConfusion k.1

/-! ## The kind of a pair -/

theorem pairKind_lane (h : takesPairs z s) (he : (s.lane z).entries = e :: rest) : pairKind z s = .lane := by
  unfold pairKind
  rw [he]
  obtain h | ⟨h, hg⟩ := h <;> rw [h]
  · rfl
  · exact if_neg hg

/-- A zone that makes a held pair: PLAYING or in its pause fade with an empty lane, or STARVED on the way to silence (05 R84). -/
def makesHeld (z : Zone) (s : State) : Prop :=
  ((s.ctl z).state = .playing ∧ (s.lane z).entries = [])
    ∨ ((s.ctl z).state = .paused ∧ (s.conc z).gain ≠ 0 ∧ (s.lane z).entries = [])
    ∨ ((s.ctl z).state = .starved ∧ (s.conc z).gain ≠ 0)

theorem pairKind_held (h : makesHeld z s) : pairKind z s = .held := by
  unfold pairKind
  obtain ⟨h, he⟩ | ⟨h, hg, he⟩ | ⟨h, hg⟩ := h <;> rw [h]
  · rw [he]
    rfl
  · rw [he]
    exact if_neg hg
  · exact if_neg hg

theorem pairKind_silent (h : (s.ctl z).state ∈ [ZoneState.idle, .cueing]
    ∨ ((s.ctl z).state ∈ [ZoneState.paused, .starved] ∧ (s.conc z).gain = 0)) : pairKind z s = .silent := by
  unfold pairKind
  simp only [List.mem_cons, List.not_mem_nil, or_false] at h
  obtain (h | h) | ⟨h | h, hg⟩ := h <;> rw [h]
  · exact if_pos hg
  · exact if_pos hg

/-! ## A lane pair -/

/-- Step 2 of 05 R85 for the next pair of the lane. -/
def concealed (z : Zone) (e : Entry) (rest : List Entry) (s : State) : Concealed :=
  let pos := (s.lane z).playPos.getD e.offset
  concealLane (s.conc z) ((s.slot e.slot).record.pairs.getD pos SamplePair.zero)
    (flaggedAt (s.slot e.slot).record.flags pos) (pos == e.offset && e.seam.splits)
    (measureRun (fun n => (s.slot n).record) (rowOfAddress s e.address).lmax (e :: rest) pos)

/-- The next pair of the lane as it is given out, and the concealment state after it (05 R85). -/
def lanePair (z : Zone) (e : Entry) (rest : List Entry) (s : State) : SamplePair × Cne :=
  finishPair (s.ctl z).setup.fade (concealed z e rest s).pair
    { s.conc z with
      mode := (concealed z e rest s).mode
      causes := { (s.conc z).causes with
        conceal := (concealed z e rest s).conceal
        seam := seamNear (s.ctl z).setup.fade rest (588 - (s.lane z).playPos.getD e.offset) } }

/-- The zone before its next lane pair is taken: its concealment state is that after the pair, and a CONCEALED report is posted
where a long run begins (05 R89). -/
def concealedState (z : Zone) (e : Entry) (rest : List Entry) (s : State) : State :=
  match (concealed z e rest s).report with
  | some why => post (.concealed z e.address ((s.lane z).playPos.getD e.offset) why) (s.setConc z (lanePair z e rest s).2)
  | none => s.setConc z (lanePair z e rest s).2

theorem producePair_lane (h : takesPairs z s) (he : (s.lane z).entries = e :: rest) :
    producePair z s = (⟨(lanePair z e rest s).1, .lane, ⟨e.track, e.address, (s.lane z).playPos.getD e.offset⟩⟩,
      drain z (concealedState z e rest s)) := by
  have hl : labelOf z .lane s = ⟨e.track, e.address, (s.lane z).playPos.getD e.offset⟩ := by
    unfold labelOf
    rw [he]
  unfold producePair
  rw [pairKind_lane h he, he]
  dsimp only
  rw [hl]
  rfl

theorem onlyReports_concealedState (z : Zone) (e : Entry) (rest : List Entry) (s : State) :
    onlyReports (s.setConc z (lanePair z e rest s).2) (concealedState z e rest s) := by
  unfold concealedState
  split
  · exact onlyReports_post _ _
  · exact onlyReports_refl _

theorem ownTurn_concealedState (z : Zone) (e : Entry) (rest : List Entry) (s : State) :
    ownTurn z s (concealedState z e rest s) :=
  ownTurn_trans (ownTurn_setConc z _ s) ((onlyReports_concealedState z e rest s).keepsPlay.ownTurn z)

/-! ## Stop fades -/

/-- A pair at which STOP is present brings the gain a step down, whatever else is present (05 R91, R94). -/
theorem finishPair_stops (fade : Nat) (before : SamplePair) (c : Cne) :
    (((finishPair fade before c).2.causes.stop = true ∧ (finishPair fade before c).2.gain = 0)
      ↔ (c.causes.stop = true ∧ stepGain c.gain 0 (gainStep fade) = 0)) := by
  show (c.causes.stop = true ∧ stepGain c.gain (targetFor c.causes) (gainStep fade) = 0) ↔ _
  refine and_congr_right fun h => ?_
  have : targetFor c.causes = 0 := by
    unfold targetFor Causes.any
    rw [h]
    simp
  rw [this]

theorem finishPair_silent {fade : Nat} {before : SamplePair} {c : Cne}
    (h : c.causes.stop = true ∧ stepGain c.gain 0 (gainStep fade) = 0) : (finishPair fade before c).1 = ⟨0#16, 0#16⟩ := by
  have k := ((finishPair_stops fade before c).mpr h).2
  show gainPair before (finishPair fade before c).2.gain = _
  rw [k, gainPair_zero]

theorem lanePair_stops (z : Zone) (e : Entry) (rest : List Entry) (s : State) :
    (((lanePair z e rest s).2.causes.stop = true ∧ (lanePair z e rest s).2.gain = 0) ↔ stopFadeEnds z s) :=
  finishPair_stops _ _ _

theorem concealedState_conc (z : Zone) (e : Entry) (rest : List Entry) (s : State) :
    (concealedState z e rest s).conc z = (lanePair z e rest s).2 := by
  rw [(onlyReports_concealedState z e rest s).conc, State.setConc_conc_same]

theorem stopTest_of_not (h : ¬ ((s.conc z).causes.stop = true ∧ (s.conc z).gain = 0)) : stopTest z s = s := by
  unfold stopTest
  exact if_neg h

theorem stopTest_done (h : (s.conc z).causes.stop = true ∧ (s.conc z).gain = 0) : stopTest z s = stopDone z s := by
  unfold stopTest
  exact if_pos h

/-! ## Taking the pair -/

theorem atBoundary_false (h : ¬ atBoundaryEntry z s) : atBoundary (s.lane z) = false := by
  unfold atBoundary
  split
  · rfl
  · rename_i e _ he
    rw [Bool.and_eq_false_iff]
    left
    by_contra k
    simp only [Bool.not_eq_false, beq_iff_eq] at k
    exact h ⟨e, by rw [he]; rfl, k⟩

/-- A pair taken behind no boundary, from a lane that keeps an entry, no stop fade ending: RSC's recomputation alone follows. -/
theorem drain_plain (hb : atBoundary (s.lane z) = false) (he : ((takePair z s).lane z).entries ≠ [])
    (hs : ¬ ((s.conc z).causes.stop = true ∧ (s.conc z).gain = 0)) : drain z s = review (takePair z s) := by
  have stays : runOut z (takePair z s) = false := by
    unfold runOut
    rw [List.isEmpty_eq_false_iff.mpr he]
    rfl
  have conc : (takePair z s).conc = s.conc := by
    rw [takePair_only]
    rfl
  unfold drain
  dsimp only
  rw [hb]
  simp only [Bool.false_eq_true, if_false, stays]
  rw [stopTest_of_not (by rw [conc]; exact hs)]

theorem takePair_below {pos : Nat} (he : (s.lane z).entries = e :: rest) (hp : (s.lane z).playPos = some pos) (h : pos < 587) :
    takePair z s = s.setLane z { Lane.taken (s.lane z) with playPos := some (pos + 1) } := by
  rw [takePair_cons he, hp]
  exact if_neg (by simpa using h)

theorem taken_of_not (h : atBoundary (s.lane z) = false) : Lane.taken (s.lane z) = s.lane z := by
  unfold Lane.taken
  rw [h]
  rfl

end Sys2Proof.Safety
end

-- ==== Lane pairs and the frames they make ====
section
/-! SUPPORT. A frame's pairs one by one (05 R84), the clean frame, and the lane pairs at the places where something follows them:
an entry's end, the boundary, the lane's end (01 R6, 06 R105, R107). -/

namespace Sys2Proof.Safety

open Sys2Proof.Machine

variable {s t u w : State} {z : Zone} {e : Entry} {rest : List Entry} {pos : Nat}

/-! ## The pairs of a frame -/

/-- The states between a frame's pairs. -/
def pairStates (z : Zone) (s : State) : Nat → State
  | 0 => s
  | k + 1 => (producePair z (inOrder (pairStates z s k))).2

theorem pairStates_shift (z : Zone) (s : State) (k : Nat) :
    pairStates z (producePair z (inOrder s)).2 k = pairStates z s (k + 1) := by
  induction k with
  | zero => rfl
  | succ k ih =>
    show (producePair z (inOrder (pairStates z (producePair z (inOrder s)).2 k))).2 = _
    rw [ih]
    rfl

theorem producePairs_eq (n : Nat) (z : Zone) (s : State) : producePairs n z s =
    ((List.range n).map fun k => (producePair z (inOrder (pairStates z s k))).1, pairStates z s n) := by
  induction n generalizing s with
  | zero => rfl
  | succ n ih =>
    unfold producePairs
    dsimp only
    rw [ih, List.range_succ_eq_map, List.map_cons, List.map_map]
    simp only [pairStates_shift]
    rfl

/-- A FRAME DUE puts the frame of the next 147 pairs in the zone's due place (09 R151). -/
theorem frameDue_eq (z : Zone) (s : State) (h : s.dlp.cadence.get z = true) : exec (.frameDue z) s = .next (endEvent
    { pairStates z (beginEvent s) 147 with dlp := { (pairStates z (beginEvent s) 147).dlp with
      due := (pairStates z (beginEvent s) 147).dlp.due.set z (some (audioFrame z
        ((List.range 147).map fun k => (producePair z (inOrder (pairStates z (beginEvent s) k))).1))) } }) := by
  have cadence : (beginEvent s).dlp.cadence.get z = true := by
    have one : ∀ (c : LineClass) (v : State), (startFrame c v).dlp.cadence = v.dlp.cadence := by
      intro c v
      unfold startFrame
      cases c with
      | audio y => dsimp only; split <;> rfl
      | request => dsimp only; split <;> rfl
      | report =>
        dsimp only
        split
        · rfl
        · split <;> rfl
    unfold beginEvent lineStart
    split
    · exact h
    · split
      · exact h
      · rw [one]
        exact h
      · rw [one]
        exact h
  rw [show exec (.frameDue z) s = .next (endEvent (frameDue z (beginEvent s))) from rfl]
  unfold frameDue
  rw [if_pos cadence, producePairs_eq]

theorem audioFrame_muted (z : Zone) (n : Nat) (p : Nat → OutPair) :
    (audioFrame z ((List.range n).map p)).muted = true ↔ ∀ k, k < n → (p k).kind = .silent := by
  unfold audioFrame
  simp

theorem audioFrame_label (z : Zone) (n : Nat) (p : Nat → OutPair) :
    (audioFrame z ((List.range (n + 1)).map p)).track = (p 0).label.track
      ∧ (audioFrame z ((List.range (n + 1)).map p)).address = (p 0).label.address
      ∧ (audioFrame z ((List.range (n + 1)).map p)).offset = (p 0).label.offset := by
  rw [List.range_succ_eq_map, List.map_cons]
  exact ⟨rfl, rfl, rfl⟩

theorem audioFrame_lane (z : Zone) (n track a pos : Nat) (p : Nat → SamplePair) :
    audioFrame z ((List.range (n + 1)).map fun k => (⟨p k, .lane, ⟨track, a, pos + k⟩⟩ : OutPair))
      = ⟨z, false, track, a, pos, (List.range (n + 1)).map p⟩ := by
  unfold audioFrame
  rw [List.map_map, List.range_succ_eq_map]
  simp [Function.comp_def]

theorem frame_of_pairs (z : Zone) (s : State) (h : s.dlp.cadence.get z = true) :
    ∃ (st : Nat → State) (f : AudioFrame), st 0 = beginEvent s
      ∧ (∀ k, k < 147 → st (k + 1) = (producePair z (inOrder (st k))).2)
      ∧ exec (.frameDue z) s = .next (endEvent { st 147 with dlp := { (st 147).dlp with
          due := (st 147).dlp.due.set z (some f) } })
      ∧ f.zone = z ∧ f.pairs = (List.range 147).map (fun k => (producePair z (inOrder (st k))).1.pair)
      ∧ (f.muted = true ↔ ∀ k, k < 147 → (producePair z (inOrder (st k))).1.kind = .silent)
      ∧ (let l := (producePair z (inOrder (st 0))).1.label
        f.track = l.track ∧ f.address = l.address ∧ f.offset = l.offset) := by
  refine ⟨pairStates z (beginEvent s), _, rfl, fun k _ => rfl, frameDue_eq z s h, rfl, ?_, audioFrame_muted z 147 _,
    audioFrame_label z 146 _⟩
  unfold audioFrame
  rw [List.map_map]
  rfl

/-! ## A pair below the end of its entry -/

theorem concealedState_lane (z : Zone) (e : Entry) (rest : List Entry) (s : State) :
    (concealedState z e rest s).lane = s.lane := by
  rw [(onlyReports_concealedState z e rest s).lane]
  rfl

/-- A lane pair below pair 587, at no boundary and at the end of no stop fade: the play position goes on by one (01 R6). -/
theorem producePair_below (h : takesPairs z s) (he : (s.lane z).entries = e :: rest) (hp : (s.lane z).playPos = some pos)
    (hlt : pos < 587) (hb : ¬ atBoundaryEntry z s) (hs : ¬ stopFadeEnds z s) :
    (producePair z s).2
      = review ((concealedState z e rest s).setLane z { s.lane z with playPos := some (pos + 1) }) := by
  have lane := congrFun (concealedState_lane z e rest s) z
  have boundary : atBoundary ((concealedState z e rest s).lane z) = false := by
    rw [lane]
    exact atBoundary_false hb
  have take : takePair z (concealedState z e rest s)
      = (concealedState z e rest s).setLane z { s.lane z with playPos := some (pos + 1) } := by
    rw [takePair_below (by rw [lane]; exact he) (by rw [lane]; exact hp) hlt, taken_of_not boundary, lane]
  rw [producePair_lane h he]
  dsimp only
  rw [drain_plain boundary ?_ ?_, take]
  · rw [take, State.setLane_lane_same]
    show (s.lane z).entries ≠ []
    rw [he]
    exact List.cons_ne_nil _ _
  · rw [concealedState_conc]
    exact fun k => hs ((lanePair_stops z e rest s).mp k)

/-- What a lane pair below pair 587 leaves (01 R6). -/
structure PairTaken (z : Zone) (pos : Nat) (c : Cne) (s t : State) : Prop where
  lane  : t.lane z = { s.lane z with playPos := some (pos + 1), runCount := (t.lane z).runCount }
  ctl   : t.ctl z = s.ctl z
  conc  : t.conc z = c
  slots : t.sst.slots = s.sst.slots
  free  : t.sst.free = s.sst.free
  other : zoneKept z.other s t

theorem pairTaken_below (h : takesPairs z s) (he : (s.lane z).entries = e :: rest) (hp : (s.lane z).playPos = some pos)
    (hlt : pos < 587) (hb : ¬ atBoundaryEntry z s) (hs : ¬ stopFadeEnds z s) :
    PairTaken z pos (lanePair z e rest s).2 s (producePair z s).2 := by
  have only := onlyReports_concealedState z e rest s
  have turn := ownTurn_concealedState z e rest s
  rw [producePair_below h he hp hlt hb hs]
  generalize hv : (concealedState z e rest s).setLane z _ = v
  have work := atWork_review v
  obtain ⟨kc, kn, kl⟩ := work.keepsPlay.zoneKept z
  refine ⟨?_, ?_, ?_, ?_, ?_, ?_⟩
  · unfold laneKept at kl
    rw [kl, ← hv, State.setLane_lane_same]
  · rw [kc, ← hv]
    show (concealedState z e rest s).ctl z = _
    rw [only.ctl]
    rfl
  · rw [kn, ← hv]
    exact concealedState_conc z e rest s
  · rw [work.store.1, ← hv]
    show (concealedState z e rest s).sst.slots = _
    rw [only.sst]
    rfl
  · rw [work.store.2.1, ← hv]
    show (concealedState z e rest s).sst.free = _
    rw [only.sst]
    rfl
  · refine zoneKept_trans turn.other (zoneKept_trans ?_ (work.keepsPlay.zoneKept z.other))
    rw [← hv]
    refine ⟨rfl, rfl, ?_⟩
    unfold laneKept
    rw [State.setLane_lane_other]

/-! ## The clean frame -/

/-- No mute cause is present. -/
def quietCauses : Causes := ⟨false, false, false, false, false⟩

theorem lanePair_clean (hm : (s.conc z).mode = .pass) (hg : (s.conc z).gain = 256) (hc : (s.conc z).causes = quietCauses)
    (hp : (s.lane z).playPos = some pos) (hflag : flaggedAt (s.slot e.slot).record.flags pos = false)
    (hseam : ∀ f ∈ rest, f.seam ≠ .gap ∧ f.seam ≠ .unverified) :
    lanePair z e rest s = ((s.slot e.slot).record.pairs.getD pos SamplePair.zero,
      ⟨(s.slot e.slot).record.pairs.getD pos SamplePair.zero, .pass, 256, 256, quietCauses⟩) := by
  have hr : concealed z e rest s = ⟨(s.slot e.slot).record.pairs.getD pos SamplePair.zero, .pass, false, none⟩ := by
    unfold concealed concealLane
    dsimp only
    rw [hm, hp, Option.getD_some, hflag, hc]
    rfl
  unfold lanePair finishPair
  rw [hr, hp, seamNear_false _ _ hseam, hg, hc]
  show (gainPair _ (stepGain 256 256 _), _) = _
  dsimp only
  rw [show targetFor _ = 256 from rfl, stepGain_full, gainPair_full]
  rfl

/-- A zone in a clean frame after `k` of its pairs. -/
structure CleanAt (z : Zone) (e : Entry) (pos k : Nat) (s u : State) : Prop where
  lane  : u.lane z = { s.lane z with playPos := some (pos + k), runCount := (u.lane z).runCount }
  conc  : ∃ held target, u.conc z = ⟨held, .pass, 256, target, quietCauses⟩
    ∧ (k ≠ 0 → held = (s.slot e.slot).record.pairs.getD (pos + (k - 1)) SamplePair.zero ∧ target = 256)
  ctl   : u.ctl z = s.ctl z
  slots : u.sst.slots = s.sst.slots
  free  : u.sst.free = s.sst.free
  other : zoneKept z.other s u

/-- A zone ready for a clean frame (05 R91, R92). -/
structure Clean (z : Zone) (e : Entry) (rest : List Entry) (pos : Nat) (s : State) : Prop where
  playing  : (s.ctl z).state = .playing
  entries  : (s.lane z).entries = e :: rest
  below    : pos ≤ 440
  boundary : (s.lane z).boundary ≠ .entry e.slot
  flags    : ∀ i, i < 147 → flaggedAt (s.slot e.slot).record.flags (pos + i) = false
  seams    : ∀ f ∈ rest, f.seam ≠ .gap ∧ f.seam ≠ .unverified

theorem CleanAt.step {k : Nat} (h : CleanAt z e pos k s u) (hc : Clean z e rest pos s) (hk : k < 147) :
    (producePair z (inOrder u)).1
        = ⟨(s.slot e.slot).record.pairs.getD (pos + k) SamplePair.zero, .lane, ⟨e.track, e.address, pos + k⟩⟩
      ∧ CleanAt z e pos (k + 1) s (producePair z (inOrder u)).2 := by
  obtain ⟨held, target, conc, -⟩ := h.conc
  have slot : u.slot = s.slot := slot_of_slots h.slots
  have playing : (u.ctl z).state = .playing := by rw [h.ctl]; exact hc.playing
  have he : (u.lane z).entries = e :: rest := by rw [h.lane]; exact hc.entries
  have hp : (u.lane z).playPos = some (pos + k) := by rw [h.lane]
  have hb : ¬ atBoundaryEntry z (inOrder u) := by
    rintro ⟨x, hx, hxb⟩
    change (u.lane z).entries.head? = some x at hx
    change (u.lane z).boundary = .entry x.slot at hxb
    rw [he] at hx
    cases hx
    rw [h.lane] at hxb
    exact hc.boundary hxb
  have hs : ¬ stopFadeEnds z (inOrder u) := by
    rintro ⟨x, -⟩
    change (u.conc z).causes.stop = true at x
    rw [conc] at x
    cases x
  have pair := lanePair_clean (s := inOrder u) (z := z) (e := e) (rest := rest) (pos := pos + k) (by show (u.conc z).mode = _; rw [conc])
    (by show (u.conc z).gain = _; rw [conc]) (by show (u.conc z).causes = _; rw [conc]) hp
    (by show flaggedAt (u.slot e.slot).record.flags _ = _; rw [slot]; exact hc.flags k hk) hc.seams
  rw [show (inOrder u).slot = s.slot from slot] at pair
  have below := hc.below
  have taken := pairTaken_below (s := inOrder u) (.inl playing) he hp (by omega) hb hs
  rw [pair] at taken
  refine ⟨?_, ?_, ⟨_, _, taken.conc, fun _ => ⟨rfl, rfl⟩⟩, taken.ctl.trans h.ctl,
    taken.slots.trans h.slots, taken.free.trans h.free,
    zoneKept_trans h.other taken.other⟩
  · rw [producePair_lane (s := inOrder u) (.inl playing) he, pair, show ((inOrder u).lane z).playPos = some (pos + k) from hp]
    rfl
  · refine taken.lane.trans ?_
    rw [show (inOrder u).lane z = u.lane z from rfl, h.lane]
    rfl

theorem cleanAt_pairStates (hc : Clean z e rest pos s) (h : CleanAt z e pos 0 s u) {k : Nat} (hk : k ≤ 147) :
    CleanAt z e pos k s (pairStates z u k) := by
  induction k with
  | zero => exact h
  | succ k ih => exact ((ih (by omega)).step hc (by omega)).2

/-- 147 pairs from a place on are those the list has there. -/
theorem map_getD_range (l : List SamplePair) (p : SamplePair) (pos n : Nat) (h : pos + n ≤ l.length) :
    ((List.range n).map fun k => l.getD (pos + k) p) = (l.drop pos).take n := by
  refine List.ext_getElem (by simp; omega) fun i h1 h2 => ?_
  simp only [List.length_map, List.length_range] at h1
  have : pos + i < l.length := by omega
  simp [this]

theorem clean_frame {e : Entry} {rest : List Entry} {pos : Nat} {s : State} (hcad : s.dlp.cadence.get z = true)
    (hplay : (s.ctl z).state = .playing) (he : (s.lane z).entries = e :: rest) (hp : (s.lane z).playPos = some pos)
    (hle : pos ≤ 440) (hb : (s.lane z).boundary ≠ .entry e.slot) (hlen : (s.slot e.slot).record.pairs.length = 588)
    (hflags : ∀ i, i < 147 → flaggedAt (s.slot e.slot).record.flags (pos + i) = false)
    (hseams : ∀ f ∈ rest, f.seam ≠ .gap ∧ f.seam ≠ .unverified)
    (hmode : (s.conc z).mode = .pass) (hgain : (s.conc z).gain = 256) (hcauses : (s.conc z).causes = quietCauses) :
    ∃ t, exec (.frameDue z) s = .next (endEvent t)
      ∧ t.dlp.due.get z = some
          ⟨z, false, e.track, e.address, pos, ((s.slot e.slot).record.pairs.drop pos).take 147⟩
      ∧ t.lane z = { s.lane z with playPos := some (pos + 147), runCount := (t.lane z).runCount }
      ∧ t.conc z = ⟨(s.slot e.slot).record.pairs.getD (pos + 146) ⟨0#16, 0#16⟩, .pass, 256, 256, quietCauses⟩
      ∧ t.ctl z = s.ctl z ∧ zoneKept z.other s t ∧ t.sst.slots = s.sst.slots ∧ t.sst.free = s.sst.free := by
  have clean : Clean z e rest pos s := ⟨hplay, he, hle, hb, hflags, hseams⟩
  have begins : CleanAt z e pos 0 s (beginEvent s) := by
    refine ⟨?_, ⟨(s.conc z).held, (s.conc z).target, ?_, fun k => absurd rfl k⟩, by rw [beginEvent_ctl], by rw [beginEvent_sst],
      by rw [beginEvent_sst], by rw [beginEvent_ctl], by rw [beginEvent_conc], ?_⟩
    · rw [beginEvent_lane, Nat.add_zero, ← hp]
    · rw [beginEvent_conc, ← hmode, ← hcauses, ← hgain]
    · unfold laneKept
      rw [beginEvent_lane]
  have at_ := fun k (hk : k ≤ 147) => cleanAt_pairStates clean begins hk
  have pairs : ((List.range 147).map fun k => (producePair z (inOrder (pairStates z (beginEvent s) k))).1)
      = (List.range 147).map fun k => (⟨(s.slot e.slot).record.pairs.getD (pos + k) SamplePair.zero, .lane,
          ⟨e.track, e.address, pos + k⟩⟩ : OutPair) :=
    List.map_congr_left fun k hk => ((at_ k (List.mem_range.mp hk).le).step clean (List.mem_range.mp hk)).1
  obtain ⟨lane, ⟨held, target, conc, last⟩, ctl, slots, free, other⟩ := at_ 147 le_rfl
  refine ⟨_, frameDue_eq z s hcad, ?_, lane, ?_, ctl, other, slots, free⟩
  · rw [pairs]
    show (PerZone.set _ z _).get z = _
    rw [PerZone.get_set_same, audioFrame_lane, map_getD_range _ _ _ _ (by omega)]
  · obtain ⟨hheld, htarget⟩ := last (by decide)
    exact conc.trans (by rw [hheld, htarget]; rfl)

end Sys2Proof.Safety
end

-- ==== Held pairs, and what follows a pair ====
section
/-! SUPPORT. Held pairs and the shortfall (06 R104, R105), the end of a stop fade (05 R94), an entry's last pair (01 R2, R6), the
lane's last pair, and the swap (06 R107). -/

namespace Sys2Proof.Safety

open Sys2Proof.Machine

variable {s t u v w : State} {z : Zone} {e : Entry} {rest : List Entry} {pos : Nat}

/-! ## Levels are kept -/

/-- The levels and the threshold are as they were: the same reports are taken (11 R162). -/
def sameLevels (s t : State) : Prop := t.dlp.levels = s.dlp.levels ∧ t.dlp.threshold = s.dlp.threshold

theorem sameLevels_refl (s : State) : sameLevels s s := ⟨rfl, rfl⟩

theorem sameLevels_trans (h : sameLevels s t) (k : sameLevels t u) : sameLevels s u :=
  ⟨k.1.trans h.1, k.2.trans h.2⟩

theorem tellsAlike.sameLevels (h : tellsAlike s t) : sameLevels s t := by
  unfold Safety.sameLevels
  rw [h.dlp]
  exact ⟨rfl, rfl⟩

theorem onlyReports.sameLevels (h : onlyReports s t) : sameLevels s t := by
  unfold onlyReports at h
  unfold Safety.sameLevels
  rw [h]
  exact ⟨rfl, rfl⟩

theorem sameLevels_startFrame (c : LineClass) (s : State) : sameLevels s (startFrame c s) := by
  unfold startFrame
  cases c with
  | audio y => dsimp only; split <;> exact ⟨rfl, rfl⟩
  | request => dsimp only; split <;> exact ⟨rfl, rfl⟩
  | report =>
    dsimp only
    split
    · exact ⟨rfl, rfl⟩
    · split <;> exact ⟨rfl, rfl⟩

theorem sameLevels_lineStart (s : State) : sameLevels s (lineStart s) := by
  unfold lineStart
  split
  · exact sameLevels_refl s
  · split
    · exact sameLevels_refl s
    · exact sameLevels_startFrame _ s
    · exact sameLevels_trans (t := { s with free := s.free + 1 }) ⟨rfl, rfl⟩ (sameLevels_startFrame _ _)

theorem sameLevels_dropRun (halt : Bool) (s : State) : sameLevels s (dropRun halt s) := by
  unfold dropRun
  split
  · exact sameLevels_refl s
  · rename_i r _
    refine sameLevels_trans ?_ (onlyScheduling_haltRun halt r.id _).tellsAlike.sameLevels
    unfold sentByNow
    split
    · exact sameLevels_lineStart (forgetRun r s)
    · exact ⟨rfl, rfl⟩

theorem sameLevels_cutRun (s : State) : sameLevels s (cutRun s) :=
  sameLevels_trans (sameLevels_dropRun true s) (endRun_scheduling true id s).tellsAlike.sameLevels

theorem sameLevels_review (s : State) : sameLevels s (review s) := by
  unfold review
  dsimp only
  split
  · exact ⟨rfl, rfl⟩
  · split
    · exact (onlyScheduling_trans (onlyScheduling_refresh s) (onlyScheduling_grant _)).tellsAlike.sameLevels
    · split
      · exact sameLevels_trans (t := refresh s) ⟨rfl, rfl⟩ (sameLevels_cutRun _)
      · exact ⟨rfl, rfl⟩

theorem sameLevels_abandonSplice (z : Zone) (s : State) : sameLevels s (abandonSplice z s) := by
  have ends : ∀ t : State, sameLevels t (endSplice z .abandoned none none none t) := by
    intro t
    unfold endSplice
    split
    · exact sameLevels_refl t
    · exact (onlyReports_post _ (t.setSplice z none)).sameLevels
  unfold abandonSplice
  split
  · exact sameLevels_refl s
  · refine sameLevels_trans ?_ (ends _)
    split
    · have flushed : sameLevels s (flushStaging s) := by
        rw [flushStaging_only]
        exact ⟨rfl, rfl⟩
      unfold cutReread
      split
      · exact sameLevels_trans flushed (sameLevels_cutRun _)
      · exact flushed
    · exact sameLevels_refl s

theorem sameLevels_flushWith (z : Zone) (s : State) : sameLevels s (flushWith z s) := by
  have handed : ∀ t : State, sameLevels t (handOver z t) := by
    intro t
    unfold handOver
    split
    · exact sameLevels_refl t
    · split
      · split
        · exact ⟨rfl, rfl⟩
        · exact sameLevels_cutRun t
      · exact sameLevels_refl t
  exact sameLevels_trans (tellsAlike_flushLane z s).sameLevels
    (sameLevels_trans (sameLevels_abandonSplice z _) (sameLevels_trans (handed _) (sameLevels_review _)))

theorem sameLevels.level (h : sameLevels s t) (r : Report) : levelOf r t = levelOf r s := by
  unfold levelOf
  rw [h.1]

/-- A report above the threshold is in the queue once it is posted (11 R162, R163). -/
theorem mem_post {r : Report} (h : s.dlp.threshold < levelOf r s) : r ∈ (post r s).dlp.reports := by
  unfold post placeReport
  rw [if_pos h]
  simp

/-! ## Classes that are up to date -/

/-- The demand classes go by the lanes, the controllers, the splices and the flags. -/
theorem demandOf_congr (hl : t.lane z = s.lane z) (hc : t.ctl z = s.ctl z) (hs : t.splice = s.splice) (hr : t.rsc = s.rsc) :
    demandOf z t = demandOf z s := by
  unfold demandOf isOpen appendingEnd refillOf cover stagingHeldByOther
  rw [hl, hc, hs, hr]

theorem fresh_iff (s : State) : fresh s ↔ s.rsc.demand = ⟨demandOf .a s, demandOf .b s⟩ := eq_comm

theorem fresh_of_demandOf (h : fresh s) (hr : t.rsc.demand = s.rsc.demand) (hd : ∀ y, demandOf y t = demandOf y s) : fresh t := by
  rw [fresh_iff] at h ⊢
  rw [hr, hd, hd, h]

theorem fresh_setConc (c : Cne) (h : fresh s) : fresh (s.setConc z c) :=
  fresh_of_demandOf h rfl fun _ => demandOf_congr rfl rfl rfl rfl

/-- A zone whose lane is closed goes to IDLE with no change of a class. -/
theorem fresh_enterIdle (cause : ZoneCause) (ho : isOpen z s = false) (h : fresh s) : fresh (enterIdle z cause s) := by
  have k := enterIdle_spec z cause s
  have lane : (enterIdle z cause s).lane = s.lane := k.lane
  have idle : ((enterIdle z cause s).ctl z).state = .idle := by rw [k.ctl, State.setConc_ctl, State.setCtl_ctl_same]
  refine fresh_of_demandOf h (by rw [k.rsc]; rfl) fun y => ?_
  obtain rfl | rfl := Zone.eq_or_other z y
  · rw [demandOf_closed ho]
    unfold demandOf
    dsimp only
    exact if_pos (.inl idle)
  · refine demandOf_congr (by rw [lane]) ?_ (by rw [k.splice]; rfl) (by rw [k.rsc]; rfl)
    rw [k.ctl, State.setConc_ctl, State.setCtl_ctl_other]

theorem isOpen_flushWith (z : Zone) (s : State) : isOpen z (flushWith z s) = false := by
  unfold isOpen
  rw [(flushWith_spec z s).2.2.2]
  rfl

theorem flushWith_ctl (z : Zone) (s : State) : (flushWith z s).ctl = s.ctl := by
  obtain ⟨r, k, -, -⟩ := flushWith_spec z s
  unfold State.ctl
  rw [k.zone, r.rest]

/-! ## The end of a stop fade -/

/-- The end of a stop fade, RSC's recomputation finding nothing new, leaves its ZONE-STATE report in the queue (06 R114). -/
theorem stopDone_report (z : Zone) (s : State)
    (h : s.dlp.threshold < levelOf (.zoneState z (s.ctl z).state .idle 0 none .stop) s) :
    Report.zoneState z (s.ctl z).state .idle 0 none .stop ∈ (review (stopDone z s)).dlp.reports := by
  have ctl : (flushWith z (inOrder s)).ctl = s.ctl := flushWith_ctl z (inOrder s)
  have levels : sameLevels s (flushWith z (inOrder s)) :=
    sameLevels_trans (onlyReports_inOrder s).sameLevels (sameLevels_flushWith z _)
  have f : fresh (stopDone z s) := fresh_enterIdle .stop (isOpen_flushWith z _) (fresh_review _)
  rw [review_of_fresh f]
  show _ ∈ (stopDone z s).dlp.reports
  unfold stopDone
  rw [enterIdle_eq, ctl]
  refine mem_post ?_
  show (flushWith z (inOrder s)).dlp.threshold < levelOf _ (flushWith z (inOrder s))
  rw [levels.2, levels.level]
  exact h

/-! ## Held pairs -/

/-- The state on which a held pair is produced: at a shortfall the zone has become STARVED (06 R104). -/
def heldBase (z : Zone) (s : State) : State := if (s.ctl z).state = .playing then starve z s else s

/-- The held pair as it is given out, and the concealment state after it (05 R85). -/
def heldPair (z : Zone) (s : State) : SamplePair × Cne := finishPair (s.ctl z).setup.fade (s.conc z).held (s.conc z)

theorem producePair_held (h : makesHeld z s) : producePair z s =
    (⟨(heldPair z (heldBase z s)).1, .held, labelOf z .held (heldBase z s)⟩,
      review (stopTest z (if (s.ctl z).state = .playing
        then zoneTests z ((heldBase z s).setConc z (heldPair z (heldBase z s)).2)
        else (heldBase z s).setConc z (heldPair z (heldBase z s)).2))) := by
  have base : (if ((s.ctl z).state == ZoneState.playing) = true then starve z s else s) = heldBase z s := by
    unfold heldBase
    simp only [beq_iff_eq]
  unfold producePair
  rw [pairKind_held h]
  dsimp only
  rw [base]
  unfold produceHeld
  simp only [beq_iff_eq]
  rfl

/-- The zone once it has become STARVED at a shortfall (06 R104). -/
theorem ownTurn_starve (z : Zone) (s : State) : ownTurn z s (starve z s) := by
  unfold starve
  exact ownTurn_trans (ownTurn_enterState _ _ z s)
    (ownTurn_trans ((keepsPlay_post _ _).ownTurn z) ((keepsPlay_review _).ownTurn z))

theorem starve_ctl (z : Zone) (s : State) : (starve z s).ctl z = { s.ctl z with state := .starved } := by
  unfold starve
  dsimp only
  rw [((keepsPlay_review _).zoneKept z).1, post_ctl, (enterState_spec z .starved .shortfall s).ctl, State.setConc_ctl,
    State.setCtl_ctl_same]

theorem starve_conc (z : Zone) (s : State) : (starve z s).conc z =
    { s.conc z with causes := { (s.conc z).causes with pause := false, starved := true } } := by
  unfold starve
  dsimp only
  rw [((keepsPlay_review _).zoneKept z).2.1, post_conc, (enterState_spec z .starved .shortfall s).conc,
    State.setConc_conc_same]
  rfl

theorem starve_lane (z : Zone) (s : State) :
    (starve z s).lane z = { s.lane z with runCount := ((starve z s).lane z).runCount } := by
  have k := ((keepsPlay_review (post (.starved z (activeTrack z (enterState z .starved .shortfall s))
    (position z (enterState z .starved .shortfall s))) (enterState z .starved .shortfall s))).zoneKept z).2.2
  unfold laneKept at k
  refine k.trans ?_
  rw [post_lane, (enterState_spec z .starved .shortfall s).lane]
  rfl

/-- The base of a held pair differs from the state it comes at only in STARVED and PAUSE, and in what the shortfall posts. -/
theorem heldBase_spec (z : Zone) (s : State) : ownTurn z s (heldBase z s)
    ∧ (heldBase z s).lane z = { s.lane z with runCount := ((heldBase z s).lane z).runCount }
    ∧ ((heldBase z s).conc z).causes.stop = (s.conc z).causes.stop ∧ ((heldBase z s).conc z).gain = (s.conc z).gain
    ∧ ((heldBase z s).conc z).held = (s.conc z).held ∧ ((heldBase z s).ctl z).setup = (s.ctl z).setup := by
  unfold heldBase
  split
  · refine ⟨ownTurn_starve z s, starve_lane z s, ?_, ?_, ?_, ?_⟩
    · rw [starve_conc]
    · rw [starve_conc]
    · rw [starve_conc]
    · rw [starve_ctl]
  · exact ⟨(keepsPlay_refl s).ownTurn z, rfl, rfl, rfl, rfl, rfl⟩

theorem heldPair_stops (z : Zone) (s : State) :
    (((heldPair z (heldBase z s)).2.causes.stop = true ∧ (heldPair z (heldBase z s)).2.gain = 0) ↔ stopFadeEnds z s) := by
  obtain ⟨-, -, hs, hg, -, hu⟩ := heldBase_spec z s
  refine (finishPair_stops _ _ _).trans ?_
  rw [hs, hg, hu]
  rfl

theorem isOpen_congr (hl : (t.lane z).tail = (s.lane z).tail) (hc : t.ctl z = { s.ctl z with state := (t.ctl z).state }) :
    isOpen z t = isOpen z s := by
  unfold isOpen appendingEnd
  rw [hl, hc]

/-! ## The tests of a zone with an empty lane -/

theorem cover_empty (h : (s.lane z).entries = []) : cover z s = 0 := by
  unfold cover coverOf pairsAhead
  simp only [h, Nat.zero_div]

/-- An empty lane that waits for more: the tests find nothing (06 R103 to R105). -/
theorem zoneTests_waiting (he : (s.lane z).entries = []) (hr : 0 < (s.ctl z).setup.resume)
    (h : isOpen z s = true ∨ (s.ctl z).next.isSome = true) : zoneTests z s = s := by
  have rest : holdsRest z s = false := by
    unfold holdsRest
    rw [he]
  have out : runOut z s = false := by
    unfold runOut
    obtain h | h := h
    · rw [h]
      simp
    · rw [Option.isNone_eq_false_iff.mpr h]
      simp
  unfold zoneTests
  split
  · rw [if_neg, out]
    · rfl
    · rw [cover_empty he, rest]
      rintro (k | k)
      · omega
      · cases k
  · rfl

/-- An empty lane that can give nothing more ends the program of a STARVED zone (06 R105). -/
theorem zoneTests_runOut (hst : (s.ctl z).state = .starved) (he : (s.lane z).entries = []) (hr : 0 < (s.ctl z).setup.resume)
    (ho : isOpen z s = false) (hn : (s.ctl z).next = none) : zoneTests z s = endProgram z s := by
  have rest : holdsRest z s = false := by
    unfold holdsRest
    rw [he]
  have out : runOut z s = true := by
    unfold runOut
    rw [he, ho, hn]
    rfl
  unfold zoneTests
  rw [if_pos (.inr hst), if_neg, if_pos out]
  rw [cover_empty he, rest]
  rintro (k | k)
  · omega
  · cases k

/-- Whatever the tests find, the zone goes on with its stop fade, or it has gone to IDLE. -/
theorem zoneTests_turn (z : Zone) (s : State) :
    (ownTurn z s (zoneTests z s) ∧ ((zoneTests z s).conc z).causes.stop = (s.conc z).causes.stop
      ∧ ((zoneTests z s).conc z).gain = (s.conc z).gain) ∨ idled z s (zoneTests z s) := by
  have stays : ownTurn z s s ∧ (s.conc z).causes.stop = (s.conc z).causes.stop ∧ (s.conc z).gain = (s.conc z).gain :=
    ⟨(keepsPlay_refl s).ownTurn z, rfl, rfl⟩
  unfold zoneTests
  split
  · split
    · left
      refine ⟨ownTurn_enterState _ _ z s, ?_, ?_⟩
      · rw [(enterState_spec z .playing .cover s).conc, State.setConc_conc_same]
      · rw [(enterState_spec z .playing .cover s).conc, State.setConc_conc_same]
    · split
      · exact .inr (idled_endProgram z s)
      · exact .inl stays
  · exact .inl stays

end Sys2Proof.Safety
end

-- ==== Held and silent pairs, and pairs at which a zone goes to IDLE ====
section
/-! SUPPORT. Silent pairs (05 R84), held pairs on the way to silence (05 R93, R95), the shortfall (06 R104, R105), the end of a
stop fade (05 R94, 06 R114), and the last pair of a lane that can give nothing more (06 R105). -/

namespace Sys2Proof.Safety

open Sys2Proof.Machine

variable {s t u v w : State} {z : Zone} {e : Entry} {rest : List Entry} {pos : Nat}

/-! ## Silent pairs -/

theorem producePair_silent (h : (s.ctl z).state ∈ [ZoneState.idle, .cueing]
    ∨ ((s.ctl z).state ∈ [ZoneState.paused, .starved] ∧ (s.conc z).gain = 0)) :
    producePair z s = (⟨SamplePair.zero, .silent, labelOf z .silent s⟩, s) := by
  unfold producePair
  rw [pairKind_silent h]

/-! ## Held pairs on the way to silence -/

theorem sent_of_eq (h : sent s) (hr : t.rsc = s.rsc) (hd : t.dlp.line = s.dlp.line) (hq : t.dlp.requests = s.dlp.requests) :
    sent t := by
  unfold sent readRunWaits at *
  rw [hr, hd, hq]
  exact h

theorem onlyReports.sent (h : onlyReports s t) (k : sent s) : Safety.sent t := sent_of_eq k h.rsc h.line h.requests

/-- A zone that is not PLAYING makes its held pair as it stands. -/
theorem heldBase_of_not (h : (s.ctl z).state ≠ .playing) : heldBase z s = s := by
  unfold heldBase
  rw [if_neg h]

/-- The held pair of a zone on its way to silence (05 R84, R93, R95). -/
theorem heldPair_fades (hm : makesHeld z s) (hn : (s.ctl z).state ≠ .playing) (hsent : sent s) (hs : ¬ stopFadeEnds z s) :
    (producePair z s).1.kind = .held
      ∧ (producePair z s).1.pair = gainPair (s.conc z).held
          (stepGain (s.conc z).gain (targetFor (s.conc z).causes) (gainStep (s.ctl z).setup.fade))
      ∧ onlyScheduling (s.setConc z { s.conc z with
          gain := stepGain (s.conc z).gain (targetFor (s.conc z).causes) (gainStep (s.ctl z).setup.fade)
          target := targetFor (s.conc z).causes }) (producePair z s).2 := by
  have stops := heldPair_stops z s
  rw [heldBase_of_not hn] at stops
  rw [producePair_held hm, if_neg hn, heldBase_of_not hn, stopTest_of_not (by rw [State.setConc_conc_same]; exact fun k => hs (stops.mp k))]
  exact ⟨rfl, rfl, onlyScheduling_review hsent⟩

/-! ## The shortfall -/

/-- The concealment state after the pair of a shortfall: a step down, whatever causes are present (05 R91, R95). -/
def shortfallConc (z : Zone) (s : State) : Cne :=
  { s.conc z with
    gain := stepGain (s.conc z).gain 0 (gainStep (s.ctl z).setup.fade)
    target := 0
    causes := { (s.conc z).causes with pause := false, starved := true } }

theorem heldPair_starve (z : Zone) (s : State) : heldPair z (starve z s) =
    (gainPair (s.conc z).held (stepGain (s.conc z).gain 0 (gainStep (s.ctl z).setup.fade)), shortfallConc z s) := by
  have target : targetFor { (s.conc z).causes with pause := false, starved := true } = 0 := by
    unfold targetFor Causes.any
    simp
  unfold heldPair finishPair shortfallConc
  rw [starve_ctl, starve_conc]
  dsimp only
  rw [target]

/-- The zone after the pair of a shortfall, before the tests that follow it (06 R104). -/
def shortfallState (z : Zone) (s : State) : State := (starve z s).setConc z (shortfallConc z s)

theorem producePair_shortfall (hp : (s.ctl z).state = .playing) (he : (s.lane z).entries = []) : producePair z s =
    (⟨gainPair (s.conc z).held (stepGain (s.conc z).gain 0 (gainStep (s.ctl z).setup.fade)), .held,
      labelOf z .held (starve z s)⟩, review (stopTest z (zoneTests z (shortfallState z s)))) := by
  have base : heldBase z s = starve z s := if_pos hp
  rw [producePair_held (.inl ⟨hp, he⟩), base, heldPair_starve, if_pos hp]
  rfl

theorem ownTurn_shortfallState (z : Zone) (s : State) : ownTurn z s (shortfallState z s) :=
  ownTurn_trans (ownTurn_starve z s) (ownTurn_setConc z _ _)

theorem shortfallState_ctl (z : Zone) (s : State) : (shortfallState z s).ctl z = { s.ctl z with state := .starved } := by
  unfold shortfallState
  rw [State.setConc_ctl, starve_ctl]

theorem shortfallState_lane (z : Zone) (s : State) : (shortfallState z s).lane z =
    { s.lane z with runCount := ((shortfallState z s).lane z).runCount } := starve_lane z s

theorem shortfallState_isOpen (z : Zone) (s : State) : isOpen z (shortfallState z s) = isOpen z s :=
  isOpen_congr (by rw [shortfallState_lane]) (ownTurn_shortfallState z s).ctl

theorem shortfallState_stops (z : Zone) (s : State) :
    (((shortfallState z s).conc z).causes.stop = true ∧ ((shortfallState z s).conc z).gain = 0) ↔ stopFadeEnds z s := by
  unfold shortfallState
  rw [State.setConc_conc_same]
  exact Iff.rfl

/-- The tests find nothing at a shortfall while more may come. -/
theorem shortfall_waits (he : (s.lane z).entries = []) (hr : 0 < (s.ctl z).setup.resume)
    (h : isOpen z s = true ∨ (s.ctl z).next.isSome = true) : zoneTests z (shortfallState z s) = shortfallState z s := by
  refine zoneTests_waiting (by rw [shortfallState_lane]; exact he) (by rw [shortfallState_ctl]; exact hr) ?_
  rw [shortfallState_isOpen, shortfallState_ctl]
  exact h

/-- The program ends at a shortfall where nothing is left to read (06 R105). -/
theorem shortfall_ends (he : (s.lane z).entries = []) (hr : 0 < (s.ctl z).setup.resume) (ho : isOpen z s = false)
    (hn : (s.ctl z).next = none) : zoneTests z (shortfallState z s) = endProgram z (shortfallState z s) :=
  zoneTests_runOut (by rw [shortfallState_ctl]) (by rw [shortfallState_lane]; exact he) (by rw [shortfallState_ctl]; exact hr)
    (by rw [shortfallState_isOpen]; exact ho) (by rw [shortfallState_ctl]; exact hn)

/-- A zone that has ended its program stays IDLE through what follows the pair. -/
theorem idled_ended (h : ownTurn z s t) : idled z s (review (stopTest z (endProgram z t))) := by
  have ended : idled z s (endProgram z t) := h.idled (idled_endProgram z t)
  rw [stopTest_idled ended]
  exact idled_scheduled ended (keepsPlay_review _) (quiet_review _)

/-- A zone whose stop fade is done stays IDLE through what follows the pair. -/
theorem idled_stopped (h : ownTurn z s t) : idled z s (review (stopDone z t)) :=
  idled_scheduled (h.idled (idled_stopDone z t)) (keepsPlay_review _) (quiet_review _)

/-! ## The two reports of a shortfall -/

/-- A report is placed by nothing of a concealment state. -/
theorem post_setConc (r : Report) (c : Cne) (s : State) : post r (s.setConc z c) = (post r s).setConc z c := by
  unfold post
  rw [show levelOf r (s.setConc z c) = levelOf r s from rfl, State.setConc_dlp]
  split <;> rfl

theorem setConc_setConc (c d : Cne) (s : State) : (s.setConc z c).setConc z d = s.setConc z d := by
  cases z <;> rfl

theorem onlyScheduling_setConc (c : Cne) (h : onlyScheduling s t) : onlyScheduling (s.setConc z c) (t.setConc z c) := by
  obtain ⟨store, disc, intake, delivery, sfm, cne, rest⟩ := h
  refine ⟨store, disc, intake, delivery, sfm, ?_, rest⟩
  show t.cne.set z c = s.cne.set z c
  rw [cne]

theorem position_of_lane (hs : (s.ctl z).state ≠ .idle) (ht : (t.ctl z).state ≠ .idle) (hl : t.lane z = s.lane z) :
    position z t = position z s := by
  unfold position
  rw [if_neg hs, if_neg ht, hl]

/-- The zone in STARVED, before the shortfall's reports (06 R104; 05 R95). -/
def starving (z : Zone) (s : State) : State :=
  (s.setCtl z { s.ctl z with state := .starved }).setConc z
    { s.conc z with causes := { (s.conc z).causes with pause := false, starved := true } }

/-- The reports of a shortfall, in their order (06 R104). -/
def shortfallReports (z : Zone) (s : State) : List Report :=
  [.zoneState z .playing .starved (activeTrack z s) (position z s) .shortfall, .starved z (activeTrack z s) (position z s)]

theorem starve_eq (hp : (s.ctl z).state = .playing) : starve z s = review (posts (shortfallReports z s) (starving z s)) := by
  have ctl : (starving z s).ctl z = { s.ctl z with state := .starved } := by
    unfold starving
    rw [State.setConc_ctl, State.setCtl_ctl_same]
  have place : position z (starving z s) = position z s :=
    position_of_lane (by rw [hp]; exact ZoneState.noConfusion) (by rw [ctl]; exact ZoneState.noConfusion) rfl
  have track : activeTrack z (starving z s) = activeTrack z s := by
    unfold activeTrack
    rw [ctl]
  have entered : enterState z .starved .shortfall s
      = post (.zoneState z .playing .starved (activeTrack z s) (position z s) .shortfall) (starving z s) := by
    show post (.zoneState z (s.ctl z).state .starved (activeTrack z (starving z s)) (position z (starving z s)) .shortfall)
      (starving z s) = _
    rw [track, place, hp]
  have track' : activeTrack z (enterState z .starved .shortfall s) = activeTrack z s := by
    rw [entered, ← track]
    unfold activeTrack
    rw [post_ctl]
  have place' : position z (enterState z .starved .shortfall s) = position z s := by
    rw [entered, ← place]
    unfold position
    rw [post_ctl, post_lane]
  unfold starve
  dsimp only
  rw [track', place', entered]
  rfl

theorem shortfallReports_pairwise (z : Zone) (s u : State) (old : ZoneState) :
    (shortfallReports z s ++ programEndReports z old u).Pairwise fun x y => mayPass y x = false := by
  have behind : ∀ r ∈ programEndReports z old u, reportZone r = some z
      ∧ ∀ a b c d k f, mayPass r (.zoneState z a b c d k) = false ∧ mayPass r (.starved z f d) = false := by
    intro r hr
    unfold programEndReports flushReports at hr
    rcases List.mem_append.mp hr with hr | hr
    · split at hr
      · rw [List.mem_singleton.mp hr]
        exact ⟨rfl, fun a b c d k f => by simp [mayPass, reportZone]⟩
      · cases hr
    · simp only [List.mem_cons, List.not_mem_nil, or_false] at hr
      obtain rfl | rfl := hr
      · exact ⟨rfl, fun a b c d k f => by simp [mayPass, reportZone]⟩
      · exact ⟨rfl, fun a b c d k f => by simp [mayPass, reportZone]⟩
  refine List.pairwise_cons.mpr ⟨fun r hr => ?_, List.pairwise_cons.mpr ⟨fun r hr => ?_, programEndReports_pairwise z old u⟩⟩
  · obtain rfl | hr := List.mem_cons.mp hr
    · simp [mayPass, reportZone]
    · exact ((behind r hr).2 _ _ _ _ _ 0).1
  · exact ((behind r hr).2 .idle .idle 0 _ .stop _).2

/-- RSC's recomputation leaves the splice of a zone that is not open. -/
theorem review_splice_closed (h : isOpen z s = false) : (review s).splice z = s.splice z := by
  have granting : (grant (refresh s)).splice z = s.splice z := by
    unfold grant
    split
    · split
      · rfl
      · rename_i y hy
        have hd := granted_demand hy
        rw [refresh_demand] at hd
        show (State.setSplice _ y _).splice z = _
        rw [State.setSplice_splice, if_neg]
        · rfl
        · rintro rfl
          exact hd (demandOf_closed h)
    · rfl
  unfold review
  dsimp only
  split
  · rfl
  · split
    · exact granting
    · split
      · exact cutRun_splice_closed (s := refresh s) h
      · rfl

theorem programEndReports_congr (old : ZoneState) (hs : t.splice z = s.splice z) (ha : (t.ctl z).active = (s.ctl z).active) :
    programEndReports z old t = programEndReports z old s := by
  unfold programEndReports flushReports activeTrack
  rw [hs, ha]

theorem shortfall_state (hp : (s.ctl z).state = .playing) (hsent : sent s) :
    onlyScheduling ((posts (shortfallReports z s) (starving z s)).setConc z (shortfallConc z s)) (shortfallState z s) := by
  unfold shortfallState
  rw [starve_eq hp]
  refine onlyScheduling_setConc _ (onlyScheduling_review ?_)
  exact (onlyReports_trans (onlyReports_post _ _) (onlyReports_post _ _)).sent (s := starving z s) hsent

theorem posts_setConc (rs : List Report) (c : Cne) (s : State) : posts rs (s.setConc z c) = (posts rs s).setConc z c := by
  induction rs generalizing s with
  | nil => rfl
  | cons r rs ih =>
    show posts rs (post r (s.setConc z c)) = _
    rw [post_setConc, ih]
    rfl

theorem fresh_shortfallState (hp : (s.ctl z).state = .playing) : fresh (shortfallState z s) := by
  unfold shortfallState
  rw [starve_eq hp]
  exact fresh_setConc _ (fresh_review _)

/-- A shortfall while more may come: the zone is STARVED, its gain a step down, and its two reports are posted (06 R104). -/
theorem shortfall_starves (hp : (s.ctl z).state = .playing) (he : (s.lane z).entries = []) (hs : ¬ stopFadeEnds z s)
    (hr : 0 < (s.ctl z).setup.resume) (hsent : sent s) (h : isOpen z s = true ∨ (s.ctl z).next.isSome = true) :
    onlyScheduling (posts (shortfallReports z s)
        ((s.setCtl z { s.ctl z with state := .starved }).setConc z (shortfallConc z s))) (producePair z s).2 := by
  rw [producePair_shortfall hp he]
  dsimp only
  rw [shortfall_waits he hr h, stopTest_of_not fun k => hs ((shortfallState_stops z s).mp k),
    review_of_fresh (fresh_shortfallState hp)]
  have start := shortfall_state hp hsent
  rw [← posts_setConc] at start
  unfold starving at start
  rw [setConc_setConc] at start
  exact onlyScheduling_trans start (onlyScheduling_refresh _)

/-- A shortfall with nothing left to read posts its own two reports and then the program end's (06 R104, R105). -/
theorem shortfall_reports (hp : (s.ctl z).state = .playing) (he : (s.lane z).entries = []) (hr : 0 < (s.ctl z).setup.resume)
    (ho : isOpen z s = false) (hn : (s.ctl z).next = none) (hsent : sent s) (hev : s.evReports = 0) :
    (producePair z s).2.dlp.reports
      = s.dlp.reports ++ aboveThreshold s (shortfallReports z s ++ programEndReports z .starved s) := by
  have ended : idled z s (endProgram z (shortfallState z s)) :=
    (ownTurn_shortfallState z s).idled (idled_endProgram z _)
  rw [producePair_shortfall hp he]
  dsimp only
  rw [shortfall_ends he hr ho hn, stopTest_idled ended]
  have told := (shortfall_state hp hsent).tellsAlike
  have begun : tellsAlike (posts (shortfallReports z s) s)
      ((posts (shortfallReports z s) (starving z s)).setConc z (shortfallConc z s)) := by
    rw [← posts_setConc]
    exact tellsAlike.posts (t := (starving z s).setConc z (shortfallConc z s)) ⟨rfl, rfl, rfl⟩ _
  have calmStarving : calm z (starving z s) := by
    refine ⟨(isOpen_congr (s := s) (t := starving z s) rfl ?_).trans ho, .inl hsent⟩
    unfold starving
    rw [State.setConc_ctl, State.setCtl_ctl_same]
  have calmReported : calm z (posts (shortfallReports z s) (starving z s)) := calm_post (calm_post calmStarving _) _
  have calmState : calm z (shortfallState z s) := by
    unfold shortfallState
    rw [starve_eq hp]
    exact calm_of_eq (calm_review calmReported).2 rfl rfl rfl rfl
  have splice : (shortfallState z s).splice z = s.splice z := by
    unfold shortfallState
    rw [starve_eq hp, State.setConc_splice, review_splice_closed calmReported.closed]
    exact congrFun (onlyReports_trans (onlyReports_post _ _) (onlyReports_post _ _)).splice z
  obtain ⟨ending, calmEnd⟩ := calm_endProgram calmState.run
  rw [programEndReports_congr _ splice (by rw [shortfallState_ctl]), shortfallState_ctl] at ending
  rw [(calm_review calmEnd).1.tellsAlike.reports, ending.reports,
    ((tellsAlike_trans begun told).posts (programEndReports z .starved s)).reports, ← posts_append]
  exact posts_blocked (fun r _ => blocked_inOrder r hev) (shortfallReports_pairwise z s s .starved)

/-! ## The end of a stop fade -/

/-- The pair at which a stop fade is done, taken from a lane: the zone is in IDLE behind it, whether its fade or its program has
ended (05 R94; LOG 24). -/
theorem idled_drain_stopped (hb : atBoundary (s.lane z) = false) (hs : (s.conc z).causes.stop = true ∧ (s.conc z).gain = 0) :
    idled z s (drain z s) := by
  have turn : ownTurn z s (takePair z s) := ownTurn_takePair z s
  have conc : (takePair z s).conc z = s.conc z := by
    rw [takePair_only]
    rfl
  unfold drain
  dsimp only
  rw [hb]
  simp only [Bool.false_eq_true, if_false]
  split
  · exact idled_ended (ownTurn_trans turn ((onlyReports_inOrder _).keepsPlay.ownTurn z))
  · rw [stopTest_done (by rw [conc]; exact hs)]
    exact idled_stopped turn

theorem drain_stopped (hb : atBoundary (s.lane z) = false) (hs : (s.conc z).causes.stop = true ∧ (s.conc z).gain = 0)
    (h : isOpen z s = true ∨ (s.ctl z).next.isSome = true) : drain z s = review (stopDone z (takePair z s)) := by
  have only := takePair_only z s
  have conc : (takePair z s).conc z = s.conc z := by rw [only]; rfl
  have ctl : (takePair z s).ctl z = s.ctl z := by rw [only]; rfl
  have stays : runOut z (takePair z s) = false := by
    have ho : isOpen z (takePair z s) = isOpen z s := isOpen_congr (takePair_fields z s).1 (by rw [ctl])
    unfold runOut
    rw [ho, ctl]
    obtain h | h := h
    · rw [h]
      simp
    · rw [Option.isNone_eq_false_iff.mpr h]
      simp
  unfold drain
  dsimp only
  rw [hb]
  simp only [Bool.false_eq_true, if_false, stays]
  rw [stopTest_done (by rw [conc]; exact hs)]

/-- The end of the stop fade is reported where the state it comes at has the same levels and the zone is in the state `old`. -/
theorem stopDone_report_at {old : ZoneState} (hl : sameLevels s t) (ho : (t.ctl z).state = old)
    (h : s.dlp.threshold < levelOf (.zoneState z old .idle 0 none .stop) s) :
    Report.zoneState z old .idle 0 none .stop ∈ (review (stopDone z t)).dlp.reports := by
  subst ho
  refine stopDone_report z t ?_
  rw [hl.2, hl.level]
  exact h

theorem sameLevels_starve (z : Zone) (s : State) : sameLevels s (starve z s) := by
  unfold starve
  refine sameLevels_trans (sameLevels_trans (t := starving z s) ⟨rfl, rfl⟩ (enterState_spec z .starved .shortfall s).sameLevels) ?_
  exact sameLevels_trans (onlyReports_post _ _).sameLevels (sameLevels_review _)

/-- What the last pair of a stop fade leaves (05 R94, 06 R114). -/
def StopFadePair (z : Zone) (old : ZoneState) (s : State) (r : OutPair × State) : Prop :=
  r.1.kind ≠ .silent ∧ r.1.pair = ⟨0#16, 0#16⟩ ∧ idled z s r.2
    ∧ (0 < (s.ctl z).setup.resume → isOpen z s = true ∨ (s.ctl z).next.isSome = true →
        s.dlp.threshold < levelOf (.zoneState z old .idle 0 none .stop) s →
        Report.zoneState z old .idle 0 none .stop ∈ r.2.dlp.reports)

theorem lanePair_ends_stop (h : takesPairs z s) (he : (s.lane z).entries = e :: rest) (hs : stopFadeEnds z s)
    (hb : ¬ atBoundaryEntry z s) : StopFadePair z (s.ctl z).state s (producePair z s) := by
  have only := onlyReports_concealedState z e rest s
  have turn := ownTurn_concealedState z e rest s
  have lane := congrFun (concealedState_lane z e rest s) z
  have ctl : (concealedState z e rest s).ctl z = s.ctl z := congrFun only.ctl z
  have boundary : atBoundary ((concealedState z e rest s).lane z) = false := by
    rw [lane]
    exact atBoundary_false hb
  have stops : ((concealedState z e rest s).conc z).causes.stop = true ∧ ((concealedState z e rest s).conc z).gain = 0 := by
    rw [concealedState_conc]
    exact (lanePair_stops z e rest s).mpr hs
  rw [producePair_lane h he]
  refine ⟨PairKind.noConfusion, finishPair_silent hs, turn.idled (idled_drain_stopped boundary stops), fun _ more above => ?_⟩
  have open_ : isOpen z (concealedState z e rest s) = isOpen z s := isOpen_congr (by rw [lane]) turn.ctl
  show _ ∈ (drain z (concealedState z e rest s)).dlp.reports
  rw [drain_stopped boundary stops (by rw [open_, ctl]; exact more)]
  refine stopDone_report_at ?_ ?_ above
  · refine sameLevels_trans (sameLevels_trans (t := s.setConc z (lanePair z e rest s).2) ⟨rfl, rfl⟩ only.sameLevels) ?_
    rw [takePair_only]
    exact ⟨rfl, rfl⟩
  · rw [takePair_only]
    exact congrArg ZoneCtl.state ctl

theorem shortfall_ends_stop (hp : (s.ctl z).state = .playing) (he : (s.lane z).entries = []) (hs : stopFadeEnds z s) :
    StopFadePair z .starved s (producePair z s) := by
  have turn := ownTurn_shortfallState z s
  have stops := (shortfallState_stops z s).mpr hs
  rw [producePair_shortfall hp he]
  refine ⟨PairKind.noConfusion, ?_, ?_, fun resume more above => ?_⟩
  · show gainPair _ (stepGain _ _ _) = _
    rw [hs.2, gainPair_zero]
  · show idled z s (review (stopTest z (zoneTests z (shortfallState z s))))
    obtain ⟨tested, stop, gain⟩ | ended := zoneTests_turn z (shortfallState z s)
    · rw [stopTest_done (by rw [stop, gain]; exact stops)]
      exact idled_stopped (ownTurn_trans turn tested)
    · rw [stopTest_idled ended]
      exact idled_scheduled (turn.idled ended) (keepsPlay_review _) (quiet_review _)
  · show _ ∈ (review (stopTest z (zoneTests z (shortfallState z s)))).dlp.reports
    rw [shortfall_waits he resume more, stopTest_done stops]
    refine stopDone_report_at ?_ (by rw [shortfallState_ctl]) above
    exact sameLevels_trans (sameLevels_starve z s) (t := starve z s) ⟨rfl, rfl⟩

theorem heldPair_ends_stop (hm : makesHeld z s) (hn : (s.ctl z).state ≠ .playing) (hs : stopFadeEnds z s) :
    StopFadePair z (s.ctl z).state s (producePair z s) := by
  have stops := (heldPair_stops z s).mpr hs
  rw [heldBase_of_not hn] at stops
  rw [producePair_held hm, if_neg hn, heldBase_of_not hn, stopTest_done (by rw [State.setConc_conc_same]; exact stops)]
  refine ⟨PairKind.noConfusion, finishPair_silent hs, idled_stopped (ownTurn_setConc z _ s), fun _ _ above => ?_⟩
  exact stopDone_report_at (t := s.setConc z (heldPair z s).2) ⟨rfl, rfl⟩ rfl above

/-- At the pair at which the gain of a stop fade reaches 0 the zone goes to IDLE (05 R94, 06 R114). -/
theorem pair_ends_stop (h : takesPairs z s ∨ ((s.ctl z).state = .starved ∧ (s.conc z).gain ≠ 0)) (hs : stopFadeEnds z s)
    (hb : ¬ atBoundaryEntry z s) :
    StopFadePair z (if (s.ctl z).state = .playing ∧ (s.lane z).entries = [] then .starved else (s.ctl z).state) s
      (producePair z s) := by
  obtain h | h := h
  · cases he : (s.lane z).entries with
    | cons e rest =>
      rw [if_neg fun k => List.cons_ne_nil _ _ k.2]
      exact lanePair_ends_stop h he hs hb
    | nil =>
      obtain hp | ⟨hp, hg⟩ := h
      · rw [if_pos ⟨hp, rfl⟩]
        exact shortfall_ends_stop hp he hs
      · have hn : (s.ctl z).state ≠ .playing := by rw [hp]; exact ZoneState.noConfusion
        rw [if_neg fun k => hn k.1]
        exact heldPair_ends_stop (.inr (.inl ⟨hp, hg, he⟩)) hn hs
  · have hn : (s.ctl z).state ≠ .playing := by rw [h.1]; exact ZoneState.noConfusion
    rw [if_neg fun k => hn k.1]
    exact heldPair_ends_stop (.inr (.inr h)) hn hs

end Sys2Proof.Safety
end

-- ==== Pairs that end an entry or a lane, and the swap ====
section
/-! SUPPORT. The last pair of a lane that can give nothing more (06 R105), the last pair of an entry with another behind it (01 R2,
R6), the swap (06 R107), and with them the statement about a frame's pairs. -/

namespace Sys2Proof.Safety

open Sys2Proof.Machine

variable {s t u v w : State} {z : Zone} {e f : Entry} {rest : List Entry} {pos : Nat}

/-! ## The last pair of a lane that can give nothing more -/

theorem swap_none (h : (s.ctl z).next = none) : swap z s = s := by
  unfold swap
  rw [h]

theorem sameLevels.aboveThreshold (h : sameLevels s t) (rs : List Report) :
    Safety.aboveThreshold t rs = Safety.aboveThreshold s rs := by
  unfold Safety.aboveThreshold
  simp only [h.2, h.level]

theorem takePair_last (he : (s.lane z).entries = [e]) (hp : (s.lane z).playPos = some 587) :
    ((takePair z s).lane z).entries = [] := by
  rw [takePair_cons he, hp, if_pos (by simp), dropHold_lane, State.setLane_lane_same, Lane.taken_dropHead_entries, he]
  rfl

/-- The pair that empties a lane with nothing left to read ends the program behind it (06 R105). -/
theorem drain_last (he : (s.lane z).entries = [e]) (hp : (s.lane z).playPos = some 587) (ho : isOpen z s = false)
    (hn : (s.ctl z).next = none) : drain z s = review (stopTest z (endProgram z (inOrder (takePair z s)))) := by
  have ctl : (takePair z s).ctl z = s.ctl z := by
    rw [takePair_only]
    rfl
  have swapped : (if atBoundary (s.lane z) then swap z (takePair z s) else takePair z s) = takePair z s := by
    rw [swap_none (by rw [ctl]; exact hn), ite_self]
  have out : runOut z (takePair z s) = true := by
    have closed : isOpen z (takePair z s) = isOpen z s := isOpen_congr (takePair_fields z s).1 (by rw [ctl])
    unfold runOut
    rw [takePair_last he hp, closed, ctl, ho, hn]
    rfl
  unfold drain
  dsimp only
  rw [swapped, if_pos out]

/-- The reports of a pair itself: CONCEALED where a long run begins (05 R89). -/
def concealedReports (z : Zone) (e : Entry) (rest : List Entry) (s : State) : List Report :=
  ((concealed z e rest s).report.map (.concealed z e.address ((s.lane z).playPos.getD e.offset))).toList

theorem concealedState_eq (z : Zone) (e : Entry) (rest : List Entry) (s : State) :
    concealedState z e rest s = posts (concealedReports z e rest s) (s.setConc z (lanePair z e rest s).2) := by
  unfold concealedState concealedReports
  split
  · rename_i why h
    rw [h]
    rfl
  · rename_i h
    rw [h]
    rfl

theorem concealedState_reports (z : Zone) (e : Entry) (rest : List Entry) (s : State) (h : s.evReports = 0) :
    (concealedState z e rest s).dlp.reports = s.dlp.reports ++ aboveThreshold s (concealedReports z e rest s) := by
  rw [concealedState_eq]
  refine posts_blocked (s := s.setConc z (lanePair z e rest s).2) (fun r _ => blocked_inOrder r h) ?_
  unfold concealedReports
  cases (concealed z e rest s).report with
  | none => exact List.Pairwise.nil
  | some why => exact List.pairwise_singleton _ _

/-- The zone when the last pair of its last entry has been taken. -/
def lastTaken (z : Zone) (e : Entry) (s : State) : State := takePair z (concealedState z e [] s)

/-- What the last pair of such a lane leaves (06 R105). -/
theorem lastPair_ends (h : takesPairs z s) (he : (s.lane z).entries = [e]) (hp : (s.lane z).playPos = some 587)
    (ho : isOpen z s = false) (hn : (s.ctl z).next = none) :
    idled z s (producePair z s).2
      ∧ (sent s → s.evReports = 0 → (producePair z s).2.dlp.reports
          = s.dlp.reports ++ aboveThreshold s (concealedReports z e [] s ++ programEndReports z (s.ctl z).state s)) := by
  have only := onlyReports_concealedState z e [] s
  have turn := ownTurn_concealedState z e [] s
  have lane := congrFun (concealedState_lane z e [] s) z
  have ctl : (concealedState z e [] s).ctl z = s.ctl z := congrFun only.ctl z
  have closed : isOpen z (concealedState z e [] s) = false := (isOpen_congr (by rw [lane]) turn.ctl).trans ho
  have taken : lastTaken z e s = { concealedState z e [] s with sst := (lastTaken z e s).sst } := takePair_only z _
  have turn' : ownTurn z s (inOrder (lastTaken z e s)) :=
    ownTurn_trans turn (ownTurn_trans (ownTurn_takePair z _) ((onlyReports_inOrder _).keepsPlay.ownTurn z))
  rw [producePair_lane h he]
  dsimp only
  rw [drain_last (by rw [lane]; exact he) (by rw [lane]; exact hp) closed (by rw [ctl]; exact hn),
    show takePair z (concealedState z e [] s) = lastTaken z e s from rfl]
  refine ⟨idled_ended turn', fun hsent hev => ?_⟩
  rw [stopTest_idled (turn'.idled (idled_endProgram z _))]
  have ctl' : (lastTaken z e s).ctl z = s.ctl z := by
    rw [taken]
    exact ctl
  have splice : (lastTaken z e s).splice z = s.splice z := by
    rw [taken]
    exact congrFun only.splice z
  have calmTaken : calm z (inOrder (lastTaken z e s)) := by
    refine ⟨(isOpen_congr (takePair_fields z (concealedState z e [] s)).1 (ownTurn_takePair z _).ctl).trans closed, .inl ?_⟩
    show sent (lastTaken z e s)
    rw [taken]
    exact only.sent (s := s.setConc z (lanePair z e [] s).2) hsent
  have levels : sameLevels s (inOrder (lastTaken z e s)) := by
    refine sameLevels_trans (sameLevels_trans (t := s.setConc z (lanePair z e [] s).2) ⟨rfl, rfl⟩ only.sameLevels) ?_
    show sameLevels _ (lastTaken z e s)
    rw [taken]
    exact ⟨rfl, rfl⟩
  have queue : (lastTaken z e s).dlp.reports = (concealedState z e [] s).dlp.reports := by rw [taken]
  have reports := endProgram_reports calmTaken.run rfl
  rw [levels.aboveThreshold,
    programEndReports_congr (s := s) (t := inOrder (lastTaken z e s)) _ splice (congrArg ZoneCtl.active ctl')] at reports
  rw [(calm_review (calm_endProgram calmTaken.run).2).1.tellsAlike.reports, reports]
  show (lastTaken z e s).dlp.reports ++ aboveThreshold s (programEndReports z ((lastTaken z e s).ctl z).state s) = _
  rw [queue, ctl', concealedState_reports z e [] s hev, List.append_assoc]
  unfold aboveThreshold
  rw [List.filter_append]

/-! ## A slot that loses a holder -/

theorem slot_inRange {n : Nat} (h : (s.slot n).holders ≠ 0) : n < s.sst.slots.length := by
  by_contra k
  refine h ?_
  unfold State.slot
  rw [List.getD_eq_default _ _ (Nat.le_of_not_lt k)]

theorem setSlot_slot_ne {n m : Nat} {x : Slot} (h : m ≠ n) : (s.setSlot n x).slot m = s.slot m := by
  unfold State.setSlot State.slot
  simp only [List.getD_eq_getElem?_getD, List.getElem?_set]
  rw [if_neg fun k => h k.symm]

/-- A slot that loses its last holder is released (01 R2). -/
theorem dropHold_last {n : Nat} (h : (s.slot n).holders = 1) :
    (dropHold n s).sst.free = s.sst.free ++ [n] ∧ ((dropHold n s).slot n).holders = 0 := by
  have slot := setSlot_slot (s := s) (m := n) (x := { s.slot n with holders := 0 }) (slot_inRange (n := n) (by rw [h]; exact one_ne_zero))
  rw [if_pos rfl] at slot
  unfold dropHold
  rw [h]
  refine ⟨rfl, ?_⟩
  show ((s.setSlot n _).slot n).holders = 0
  rw [slot]

/-- A slot that keeps a holder stays where it is (01 R2). -/
theorem dropHold_more {n k : Nat} (h : (s.slot n).holders = k + 2) :
    (dropHold n s).sst.free = s.sst.free ∧ ((dropHold n s).slot n).holders = k + 1 := by
  have slot := setSlot_slot (s := s) (m := n) (x := { s.slot n with holders := k + 1 }) (slot_inRange (n := n) (by rw [h]; omega))
  rw [if_pos rfl] at slot
  unfold dropHold
  rw [h]
  refine ⟨rfl, ?_⟩
  show ((s.setSlot n _).slot n).holders = k + 1
  rw [slot]

theorem dropHold_slot_ne {n m : Nat} (h : m ≠ n) : (dropHold n s).slot m = s.slot m := by
  unfold dropHold
  split
  · rfl
  · exact setSlot_slot_ne h
  · exact setSlot_slot_ne h

/-! ## The last pair of an entry with another behind it -/

/-- What that pair leaves (01 R2, R6): the entry has left, and its slot has lost a holder. -/
theorem entryEnds (h : takesPairs z s) (he : (s.lane z).entries = e :: f :: rest) (hp : (s.lane z).playPos = some 587)
    (hb : ¬ atBoundaryEntry z s) (hs : ¬ stopFadeEnds z s) :
    (producePair z s).2 = review (dropHold e.slot ((concealedState z e (f :: rest) s).setLane z (s.lane z).dropHead)) := by
  have lane := congrFun (concealedState_lane z e (f :: rest) s) z
  have boundary : atBoundary ((concealedState z e (f :: rest) s).lane z) = false := by
    rw [lane]
    exact atBoundary_false hb
  have take : takePair z (concealedState z e (f :: rest) s)
      = dropHold e.slot ((concealedState z e (f :: rest) s).setLane z (s.lane z).dropHead) := by
    rw [takePair_cons (by rw [lane]; exact he), taken_of_not boundary, lane, hp]
    exact if_pos (by simp)
  rw [producePair_lane h he]
  dsimp only
  rw [drain_plain boundary ?_ ?_, take]
  · rw [take, dropHold_lane, State.setLane_lane_same]
    unfold Lane.dropHead
    rw [he]
    exact List.cons_ne_nil _ _
  · rw [concealedState_conc]
    exact fun k => hs ((lanePair_stops z e (f :: rest) s).mp k)

theorem dropHead_cons {l : Lane} (h : l.entries = e :: f :: rest) :
    l.dropHead = { l with entries := f :: rest, playPos := some f.offset, runCount := l.dropHead.runCount } := by
  unfold Lane.dropHead
  rw [h]
  rfl

/-! ## The swap -/

/-- A pair that is not flagged begins no run (05 R89). -/
theorem concealLane_report (c : Cne) (x : SamplePair) (seamStart : Bool) (m : Measured) :
    (concealLane c x false seamStart m).report = none := by
  unfold concealLane
  split <;> rfl

theorem concealedState_unflagged (hp : (s.lane z).playPos = some pos)
    (h : flaggedAt (s.slot e.slot).record.flags pos = false) :
    concealedState z e rest s = s.setConc z (lanePair z e rest s).2 := by
  have none : (concealed z e rest s).report = none := by
    unfold concealed
    dsimp only
    rw [hp, Option.getD_some, h]
    exact concealLane_report _ _ _ _
  rw [concealedState_eq]
  unfold concealedReports
  rw [none]
  rfl

theorem setCtl_setCtl (c d : ZoneCtl) (s : State) : (s.setCtl z c).setCtl z d = s.setCtl z d := by cases z <;> rfl

/-- The program list once NEXT has been used up (06 R107). -/
theorem consumeOrigin_setCtl (o : Origin) (c : ZoneCtl) (hp : c.program = (s.ctl z).program)
    (hm : c.repeatMode = (s.ctl z).repeatMode) :
    consumeOrigin z o (s.setCtl z c) = s.setCtl z { c with program := programAfter z o s } := by
  have kept : s.setCtl z c = s.setCtl z { c with program := (s.ctl z).program } := by rw [← hp]
  unfold consumeOrigin programAfter
  cases o with
  | program =>
    unfold popProgram
    dsimp only
    rw [State.setCtl_ctl_same, ← hp, ← hm]
    cases hc : c.program with
    | nil =>
      dsimp only
      rw [← hc]
    | cons x xs =>
      dsimp only
      rw [setCtl_setCtl]
  | repeatTrack => exact kept
  | order => exact kept

/-- The zone after the swap, before the answer to it (06 R107). -/
def swapped (z : Zone) (n : NextCtx) (s : State) : State :=
  s.setCtl z { s.ctl z with
    active := some ⟨n.track, n.start, n.stop⟩, program := programAfter z n.origin s, next := none }

theorem swap_eq {n : NextCtx} {a : Active} (hn : (s.ctl z).next = some n) (ha : (s.ctl z).active = some a) :
    swap z s = checkOwnerLane (settleTail z (post (.trackChange z a.track n.track n.start n.contiguous) (swapped z n s))) := by
  have track : activeTrack z s = a.track := by
    unfold activeTrack
    rw [ha]
  have used := consumeOrigin_setCtl (z := z) (s := s) n.origin
    { s.ctl z with active := some ⟨n.track, n.start, n.stop⟩ } rfl rfl
  unfold swap
  rw [hn]
  dsimp only at used ⊢
  rw [track, used, State.setCtl_ctl_same, setCtl_setCtl]
  rfl

/-- The answer to a swap in a zone that has no splice and is neither CUEING nor STARVED is its arming alone. -/
theorem settleTail_arms (hb : (s.lane z).boundary ≠ .pending) (hs : s.splice z = none)
    (hc : (s.ctl z).state ≠ .cueing ∧ (s.ctl z).state ≠ .starved) : settleTail z s = armNow z s := by
  have keep : abandonIfMoved z (armNow z s) = armNow z s := by
    unfold abandonIfMoved
    rw [show (armNow z s).splice z = none by rw [armNow_only]; exact hs]
  unfold settleTail
  rw [armOrReadOver_of_not_pending hb, keep]
  unfold zoneTests
  rw [(armNow_keeps z s).2.2.1]
  exact if_neg fun k => k.elim hc.1 hc.2

theorem armNow_program (z : Zone) (s : State) : ((armNow z s).ctl z).active = (s.ctl z).active
    ∧ ((armNow z s).ctl z).program = (s.ctl z).program := by
  unfold armNow
  split
  · exact ⟨rfl, rfl⟩
  · rw [State.setLane_ctl, State.setCtl_ctl_same]
    exact ⟨rfl, rfl⟩

theorem onlyScheduling_checked (h : sent s) : onlyScheduling s (review (checkOwnerLane s)) := by
  unfold checkOwnerLane
  split
  · exact onlyScheduling_review h
  · split
    · rw [review_of_fresh (s := cutRun s) (fresh_endRun true id s)]
      exact onlyScheduling_trans (onlyScheduling_cutSent h) (onlyScheduling_refresh _)
    · exact onlyScheduling_review h

/-- The zone when the first pair of its boundary entry has been taken (01 R5, R6). -/
def boundaryTaken (z : Zone) (e : Entry) (rest : List Entry) (s : State) : State :=
  (s.setConc z (lanePair z e rest s).2).setLane z { s.lane z with playPos := some (e.offset + 1), boundary := .absent }

/-- The zone when NEXT has become ACTIVE at that pair, its TRACK-CHANGE posted (06 R107). -/
def swappedAt (z : Zone) (e : Entry) (rest : List Entry) (n : NextCtx) (a : Active) (s : State) : State :=
  post (.trackChange z a.track n.track n.start n.contiguous) (swapped z n (boundaryTaken z e rest s))

theorem swapPair {n : NextCtx} {a : Active} (h : takesPairs z s) (he : (s.lane z).entries = e :: rest)
    (hb : (s.lane z).boundary = .entry e.slot) (hp : (s.lane z).playPos = some e.offset) (hlt : e.offset < 587)
    (hn : (s.ctl z).next = some n) (ha : (s.ctl z).active = some a) (hsp : s.splice z = none) (hs : ¬ stopFadeEnds z s)
    (hf : flaggedAt (s.slot e.slot).record.flags e.offset = false) :
    (producePair z s).2 = review (checkOwnerLane (armNow z (swappedAt z e rest n a s))) := by
  have before := concealedState_unflagged (e := e) (rest := rest) hp hf
  have boundary : atBoundary (s.lane z) = true := by
    unfold atBoundary
    rw [he, hb, hp]
    simp
  have take : takePair z (s.setConc z (lanePair z e rest s).2) = boundaryTaken z e rest s := by
    have taken : Lane.taken (s.lane z) = { s.lane z with boundary := .absent } := by
      unfold Lane.taken
      rw [boundary]
      rfl
    rw [takePair_below (s := s.setConc z (lanePair z e rest s).2) he hp hlt]
    show (s.setConc z _).setLane z { Lane.taken (s.lane z) with playPos := some (e.offset + 1) } = _
    rw [taken]
    rfl
  have ctl : (boundaryTaken z e rest s).ctl = s.ctl := rfl
  have answered : swap z (boundaryTaken z e rest s) = checkOwnerLane (armNow z (swappedAt z e rest n a s)) := by
    rw [swap_eq (by rw [ctl]; exact hn) (by rw [ctl]; exact ha)]
    refine congrArg checkOwnerLane (settleTail_arms ?_ ?_ ?_)
    · rw [post_lane]
      show ((boundaryTaken z e rest s).lane z).boundary ≠ _
      unfold boundaryTaken
      rw [State.setLane_lane_same]
      exact Boundary.noConfusion
    · rw [post_splice]
      exact hsp
    · unfold swapped
      rw [post_ctl, State.setCtl_ctl_same, ctl]
      show (s.ctl z).state ≠ _ ∧ (s.ctl z).state ≠ _
      obtain k | ⟨k, -⟩ := h <;> rw [k] <;> exact ⟨ZoneState.noConfusion, ZoneState.noConfusion⟩
  have kept := (atWork_checkOwnerLane (armNow z (swappedAt z e rest n a s))).keepsPlay
  have stays : runOut z (checkOwnerLane (armNow z (swappedAt z e rest n a s))) = false := by
    have entries : ((checkOwnerLane (armNow z (swappedAt z e rest n a s))).lane z).entries = e :: rest := by
      have l := kept.lane z
      unfold laneKept at l
      rw [l, (armNow_keeps z _).1, ← he]
      unfold swappedAt
      rw [post_lane]
      show ((boundaryTaken z e rest s).lane z).entries = _
      unfold boundaryTaken
      rw [State.setLane_lane_same]
    unfold runOut
    rw [entries]
    rfl
  have conc : (checkOwnerLane (armNow z (swappedAt z e rest n a s))).conc z = (lanePair z e rest s).2 := by
    rw [(kept.zoneKept z).2.1, armNow_only]
    show (swappedAt z e rest n a s).conc z = _
    unfold swappedAt
    rw [post_conc]
    exact State.setConc_conc_same s z _
  rw [producePair_lane h he, before]
  dsimp only
  unfold drain
  dsimp only
  rw [State.setConc_lane, boundary, take]
  simp only [if_true]
  rw [answered, stays]
  simp only [Bool.false_eq_true, if_false]
  rw [stopTest_of_not]
  rw [conc]
  exact fun k => hs ((lanePair_stops z e rest s).mp k)

/-! ## The statement -/

/-- What the last pair of an entry with another behind it leaves (01 R2, R6). -/
theorem entryEnds_spec (h : takesPairs z s) (he : (s.lane z).entries = e :: f :: rest) (hp : (s.lane z).playPos = some 587)
    (hb : ¬ atBoundaryEntry z s) (hs : ¬ stopFadeEnds z s) :
    let t := (producePair z s).2
    t.lane z = { s.lane z with entries := f :: rest, playPos := some f.offset, runCount := (t.lane z).runCount }
      ∧ ((s.slot e.slot).holders = 1 → t.sst.free = s.sst.free ++ [e.slot] ∧ (t.slot e.slot).holders = 0)
      ∧ (∀ n, (s.slot e.slot).holders = n + 2 → t.sst.free = s.sst.free ∧ (t.slot e.slot).holders = n + 1)
      ∧ (∀ n, (t.slot n).record = (s.slot n).record) ∧ (∀ n, n ≠ e.slot → t.slot n = s.slot n)
      ∧ (t.ctl z).state = (s.ctl z).state ∧ zoneKept z.other s t := by
  have only := onlyReports_concealedState z e (f :: rest) s
  rw [entryEnds h he hp hb hs]
  generalize hx : (concealedState z e (f :: rest) s).setLane z (s.lane z).dropHead = x
  have sst : x.sst.free = s.sst.free ∧ x.sst.slots = s.sst.slots := by
    have store : (concealedState z e (f :: rest) s).sst = s.sst := only.sst
    rw [← hx]
    unfold State.setLane
    dsimp only
    rw [store]
    exact ⟨rfl, rfl⟩
  have slot : x.slot = s.slot := slot_of_slots sst.2
  have work := atWork_review (dropHold e.slot x)
  have slot' : (review (dropHold e.slot x)).slot = (dropHold e.slot x).slot := slot_of_slots work.store.1
  have held := dropHold_only e.slot x
  refine ⟨?_, fun k => ?_, fun n k => ?_, fun n => ?_, fun n k => ?_, ?_, ?_⟩
  · have l := work.keepsPlay.lane z
    unfold laneKept at l
    rw [l, dropHold_lane, ← hx, State.setLane_lane_same, dropHead_cons he]
  · obtain ⟨h1, h2⟩ := dropHold_last (s := x) (n := e.slot) (by rw [slot]; exact k)
    rw [work.store.2.1, slot', h1, sst.1]
    exact ⟨rfl, h2⟩
  · obtain ⟨h1, h2⟩ := dropHold_more (s := x) (n := e.slot) (k := n) (by rw [slot]; exact k)
    rw [work.store.2.1, slot', h1, sst.1]
    exact ⟨rfl, h2⟩
  · rw [slot', dropHold_record, slot]
  · rw [slot', dropHold_slot_ne k, slot]
  · rw [(work.keepsPlay.zoneKept z).1, held, ← hx]
    exact congrArg ZoneCtl.state (congrFun only.ctl z)
  · refine zoneKept_trans (ownTurn_concealedState z e (f :: rest) s).other
      (zoneKept_trans (t := dropHold e.slot x) ⟨?_, ?_, ?_⟩ (work.keepsPlay.zoneKept z.other))
    · rw [held, ← hx]
      rfl
    · rw [held, ← hx]
      rfl
    · unfold laneKept
      rw [dropHold_lane, ← hx, State.setLane_lane_other]

/-- What the swap leaves (06 R107), no arming following it where the lane's tail stands elsewhere than at the new ACTIVE's end. -/
theorem swapPair_spec {n : NextCtx} {a : Active} (hsent : sent s) (h : takesPairs z s) (he : (s.lane z).entries = e :: rest)
    (hb : (s.lane z).boundary = .entry e.slot) (hp : (s.lane z).playPos = some e.offset) (hlt : e.offset < 587)
    (hn : (s.ctl z).next = some n) (ha : (s.ctl z).active = some a) (hsp : s.splice z = none) (hs : ¬ stopFadeEnds z s)
    (hf : flaggedAt (s.slot e.slot).record.flags e.offset = false) :
    let t := (producePair z s).2
    let c := { s.ctl z with active := some ⟨n.track, n.start, n.stop⟩, program := programAfter z n.origin s }
    (t.ctl z).active = c.active ∧ (t.ctl z).program = c.program ∧ (t.ctl z).state = (s.ctl z).state
      ∧ (t.lane z).entries = (s.lane z).entries ∧ (t.lane z).playPos = some (e.offset + 1)
      ∧ ((s.lane z).tail ≠ some n.stop →
          onlyScheduling (post (.trackChange z a.track n.track n.start n.contiguous)
            (((s.setConc z (t.conc z)).setLane z
              { s.lane z with playPos := some (e.offset + 1), boundary := .absent }).setCtl z { c with next := none })) t) := by
  have ctl : (swappedAt z e rest n a s).ctl z = { s.ctl z with
      active := some ⟨n.track, n.start, n.stop⟩, program := programAfter z n.origin s, next := none } := by
    unfold swappedAt swapped
    rw [post_ctl, State.setCtl_ctl_same]
    rfl
  have lane : (swappedAt z e rest n a s).lane z
      = { s.lane z with playPos := some (e.offset + 1), boundary := .absent } := by
    unfold swappedAt
    rw [post_lane]
    show (boundaryTaken z e rest s).lane z = _
    unfold boundaryTaken
    rw [State.setLane_lane_same]
  have conc : (swappedAt z e rest n a s).conc z = (lanePair z e rest s).2 := by
    unfold swappedAt
    rw [post_conc]
    exact State.setConc_conc_same s z _
  have sent' : sent (swappedAt z e rest n a s) :=
    (onlyReports_post _ (swapped z n (boundaryTaken z e rest s))).sent hsent
  have kept := keepsPlay_trans (atWork_checkOwnerLane (armNow z (swappedAt z e rest n a s))).keepsPlay (keepsPlay_review _)
  obtain ⟨kc, -, kl⟩ := kept.zoneKept z
  unfold laneKept at kl
  obtain ⟨entries, playPos, state, -⟩ := armNow_keeps z (swappedAt z e rest n a s)
  obtain ⟨active, program⟩ := armNow_program z (swappedAt z e rest n a s)
  rw [swapPair h he hb hp hlt hn ha hsp hs hf]
  refine ⟨?_, ?_, ?_, ?_, ?_, fun ht => ?_⟩
  · rw [kc, active, ctl]
  · rw [kc, program, ctl]
  · rw [kc, state, ctl]
  · rw [kl, entries, lane]
  · rw [kl, playPos, lane]
  · have stays : armNow z (swappedAt z e rest n a s) = swappedAt z e rest n a s := by
      refine armNow_none ?_
      unfold toArm
      rw [ctl, lane]
      exact if_neg fun k => ht k.2.2
    have work := onlyScheduling_checked sent'
    rw [stays, (work.keepsPlay.zoneKept z).2.1, conc]
    exact work

/-- Settles O28: each kind of pair by its own lemma — clean frame, shortfall, fading held pair, lane pair, end of a stop fade,
silent pair, program end, entry end, swap — and the frame by the 147 pairs in turn. -/
theorem cleanFramePlaysTheLane : Obligations.CleanFramePlaysTheLane := by
  unfold Obligations.CleanFramePlaysTheLane
  refine ⟨frame_of_pairs, ?_, ?_, ?_, ?_, ?_, ?_, ?_, ?_, ?_⟩
  · intro z e rest pos s hcad hplay he hp hle hb hlen hflags hseams hmode hgain hcauses
    exact clean_frame hcad hplay he hp hle hb hlen hflags hseams hmode hgain hcauses
  · intro z s hp he hs hr
    refine ⟨?_, ?_, fun hsent more => shortfall_starves hp he hs hr hsent more, fun ho hn => ⟨?_, fun hsent hev => ?_⟩⟩
    · rw [producePair_shortfall hp he]
    · rw [producePair_shortfall hp he]
    · rw [producePair_shortfall hp he]
      dsimp only
      rw [shortfall_ends he hr ho hn]
      exact idled_ended (ownTurn_shortfallState z s)
    · exact shortfall_reports hp he hr ho hn hsent hev
  · intro z s hsent hs hg h
    have fades : makesHeld z s ∧ (s.ctl z).state ≠ .playing := by
      obtain h | ⟨h, he⟩ := h
      · exact ⟨.inr (.inr ⟨h, hg⟩), by rw [h]; exact ZoneState.noConfusion⟩
      · exact ⟨.inr (.inl ⟨h, hg, he⟩), by rw [h]; exact ZoneState.noConfusion⟩
    exact heldPair_fades fades.1 fades.2 hsent hs
  · intro z e rest pos s h he hp hlt hb hs
    have taken := pairTaken_below h he hp hlt hb hs
    refine ⟨?_, ?_, taken.lane, taken.ctl, taken.slots, taken.free, taken.other⟩
    · rw [producePair_lane h he]
    · rw [producePair_lane h he, hp]
      rfl
  · intro z s h hs hb
    exact pair_ends_stop h hs hb
  · intro z s h
    rw [producePair_silent h]
    exact ⟨rfl, rfl, rfl⟩
  · intro z e s h he hp ho hn
    obtain ⟨ended, reports⟩ := lastPair_ends h he hp ho hn
    refine ⟨by rw [producePair_lane h he], ended, fun hsent hev => ⟨concealedReports z e [] s, ?_, reports hsent hev⟩⟩
    unfold concealedReports
    rw [hp]
    cases (concealed z e [] s).report with
    | none => exact .inl rfl
    | some why => exact .inr ⟨why, rfl⟩
  · intro z e f rest s h he hp hb hs
    refine ⟨?_, ?_, entryEnds_spec h he hp hb hs⟩
    · rw [producePair_lane h he]
    · rw [producePair_lane h he, hp]
      rfl
  · intro z e rest n a s hsent h he hb hp hlt hn ha hsp hs hf
    refine ⟨?_, ?_, swapPair_spec hsent h he hb hp hlt hn ha hsp hs hf⟩
    · rw [producePair_lane h he]
    · rw [producePair_lane h he, hp]
      rfl

end Sys2Proof.Safety
end

-- ==== The search ====
section
/-! SUPPORT. The best candidate of a search, the stream it is sought in, and the window gathered from a lane (03 R53 to R56). -/

namespace Sys2Proof.Safety

open Sys2Proof.Machine

variable {s : State} {z : Zone}

/-! ## The best candidate -/

/-- A score counts the positions of the window that score, `c` saying which do (03 R55). -/
theorem scoreHere_count {tol : Nat} {ref st : List MarkedPair} {c : Nat → Bool}
    (both : ∀ i x y, ref[i]? = some x → st[i]? = some y → c i = pairScores tol x y)
    (past : ∀ i x, ref[i]? = some x → st[i]? = none → c i = false) :
    ((List.range ref.length).filter c).length = scoreHere tol ref st := by
  induction ref generalizing st c with
  | nil => rfl
  | cons x ref ih =>
    have tail := ih (st := st.tail) (c := fun i => c (i + 1))
      (fun i a b ha hb => both (i + 1) a b ha (by rw [← List.getElem?_tail]; exact hb))
      (fun i a ha hb => past (i + 1) a ha (by rw [← List.getElem?_tail]; exact hb))
    have count : ((List.range (x :: ref).length).filter c).length
        = (if c 0 then 1 else 0) + scoreHere tol ref st.tail := by
      rw [List.length_cons, List.range_succ_eq_map, List.filter_cons, List.filter_map]
      split
      · rw [List.length_cons, List.length_map, ← tail, Nat.add_comm]
        rfl
      · rw [List.length_map, ← tail, Nat.zero_add]
        rfl
    rw [count]
    cases st with
    | nil =>
      rw [past 0 x rfl rfl]
      cases ref <;> rfl
    | cons y st =>
      rw [both 0 x y rfl rfl]
      rfl

/-- Of the positions below `n` the candidate `b` has the highest score, is nearest among equals, and the lowest among those (03
R56). -/
def BestBelow (score far : Nat → Nat) (n : Nat) (b : Nat × Nat) : Prop :=
  b.1 < n ∧ b.2 = score b.1 ∧ ∀ p, p < n → p ≠ b.1 →
    score p < b.2 ∨ (score p = b.2 ∧ (far b.1 < far p ∨ (far b.1 = far p ∧ b.1 < p)))

/-- The next position is the best where it beats the best so far. -/
theorem BestBelow.next {score : Nat → Nat} {expected : Int} {n : Nat} {b : Nat × Nat}
    (h : BestBelow score (candidateDistance · expected) n b) :
    BestBelow score (candidateDistance · expected) (n + 1) (if beats expected n (score n) b then (n, score n) else b) := by
  obtain ⟨hlt, hscore, hbest⟩ := h
  have beat : beats expected n (score n) b = true
      ↔ b.2 < score n ∨ (score n = b.2 ∧ candidateDistance n expected < candidateDistance b.1 expected) := by
    unfold beats
    simp
  split
  · rename_i k
    refine ⟨Nat.lt_succ_self n, rfl, fun p hp hne => ?_⟩
    dsimp only at hne hbest ⊢
    have won := beat.mp k
    by_cases e : p = b.1
    · rw [e, ← hscore]
      omega
    · have old := hbest p (by omega) e
      omega
  · rename_i k
    refine ⟨by omega, hscore, fun p hp hne => ?_⟩
    obtain hp | rfl := Nat.lt_succ_iff_lt_or_eq.mp hp
    · exact hbest p hp hne
    · have lost := mt beat.mpr k
      dsimp only
      omega

theorem bestBelow_bestFrom {ref full : List MarkedPair} {tol : Nat} {expected : Int} (left p : Nat) {b : Nat × Nat}
    (h : BestBelow (fun x => scoreHere tol ref (full.drop x)) (candidateDistance · expected) p b) :
    BestBelow (fun x => scoreHere tol ref (full.drop x)) (candidateDistance · expected) (p + left)
      (bestFrom ref tol expected left p (full.drop p) b) := by
  induction left generalizing p b with
  | zero => exact h
  | succ left ih =>
    unfold bestFrom
    rw [List.tail_drop, show p + (left + 1) = p + 1 + left by omega]
    exact ih (p + 1) h.next

/-- The best candidate is the best of all the positions the window fits at (03 R54, R56). -/
theorem bestBelow_bestCandidate (ref : List MarkedPair) (tol : Nat) (expected : Int) (st : List MarkedPair) :
    BestBelow (fun x => scoreHere tol ref (st.drop x)) (candidateDistance · expected) (st.length - ref.length + 1)
      (bestCandidate ref tol expected st) := by
  unfold bestCandidate
  rw [Nat.add_comm, ← List.drop_one]
  refine bestBelow_bestFrom _ 1 ⟨Nat.zero_lt_one, rfl, fun p hp hne => ?_⟩
  dsimp only at hne
  omega

/-- Only the scores of those positions matter. -/
theorem BestBelow.congr {score score' far : Nat → Nat} {n : Nat} {b : Nat × Nat} (h : BestBelow score far n b)
    (e : ∀ p, p < n → score p = score' p) : BestBelow score' far n b := by
  obtain ⟨hlt, hscore, hbest⟩ := h
  exact ⟨hlt, hscore.trans (e _ hlt), fun p hp hne => e p hp ▸ hbest p hp hne⟩

/-- Where the best candidate alone may be accepted, and is where its score is at least `u - x`, none is accepted exactly where
every score falls short (03 R56). -/
theorem BestBelow.accepted {score far : Nat → Nat} {n u x : Nat} {b : Nat × Nat} {out : Option Nat}
    (h : BestBelow score far (n + 1) b) (accept : ∀ p, out = some p ↔ u ≤ b.2 + x ∧ b.1 = p) :
    (out = none ↔ ∀ p, p ≤ n → ¬ u ≤ score p + x) ∧ ∀ p, out = some p → p ≤ n ∧ u ≤ score p + x ∧
      ∀ y, y ≤ n → y ≠ p → score y < score p ∨ (score y = score p ∧ (far p < far y ∨ (far p = far y ∧ p < y))) := by
  obtain ⟨hlt, hscore, hbest⟩ := h
  rw [hscore] at accept hbest
  refine ⟨⟨fun hnone p hp enough => ?_, fun short => ?_⟩, fun p hp => ?_⟩
  · have upper : score p ≤ score b.1 := by
      by_cases e : p = b.1
      · rw [e]
      · have := hbest p (Nat.lt_succ_of_le hp) e
        omega
    have found := (accept b.1).mpr ⟨enough.trans (Nat.add_le_add_right upper x), rfl⟩
    rw [hnone] at found
    cases found
  · refine Option.eq_none_iff_forall_ne_some.mpr fun p hp => ?_
    exact short b.1 (Nat.le_of_lt_succ hlt) ((accept p).mp hp).1
  · obtain ⟨enough, rfl⟩ := (accept p).mp hp
    exact ⟨Nat.le_of_lt_succ hlt, enough, fun y hy => hbest y (Nat.lt_succ_of_le hy)⟩

/-! ## The stream -/

theorem getElem?_flatMap_uniform {α β : Type} {f : α → List β} {n : Nat} (hn : 0 < n) (hf : ∀ x, (f x).length = n)
    (l : List α) (j : Nat) : (l.flatMap f)[j]? = l[j / n]?.bind fun x => (f x)[j % n]? := by
  induction l generalizing j with
  | nil => simp
  | cons x l ih =>
    rw [List.flatMap_cons]
    by_cases h : j < n
    · rw [List.getElem?_append_left (by rw [hf]; exact h), Nat.div_eq_of_lt h, Nat.mod_eq_of_lt h]
      rfl
    · have next : j / n = (j - n) / n + 1 := Nat.div_eq_sub_div hn (by omega)
      rw [List.getElem?_append_right (by rw [hf]; omega), hf, ih, next, List.getElem?_cons_succ,
        Nat.mod_eq_sub_mod (by omega : j ≥ n)]

/-- The pairs of a record from `lo` on, each with its flag. -/
theorem markedPairs_eq (rec : Sector) (lo : Nat) : markedPairs rec lo = (List.range (588 - lo)).map fun i =>
    ⟨rec.pairs.getD (lo + i) SamplePair.zero, flaggedAt rec.flags (lo + i)⟩ := by
  unfold markedPairs
  rw [List.range_eq_range', List.drop_range', List.range'_eq_map_range, List.map_map]
  refine List.map_congr_left fun i _ => ?_
  simp only [Function.comp_apply, Nat.zero_add, Nat.mul_one]

theorem markedPairs_zero (rec : Sector) {i : Nat} (h : i < 588) :
    (markedPairs rec 0)[i]? = some ⟨rec.pairs.getD i SamplePair.zero, flaggedAt rec.flags i⟩ := by
  rw [markedPairs_eq, List.getElem?_map, List.getElem?_range h]
  simp

theorem markedPairs_length (rec : Sector) (lo : Nat) : (markedPairs rec lo).length = 588 - lo := by
  rw [markedPairs_eq, List.length_map, List.length_range]

/-- The stream of `o + 1` staged sectors, pair by pair (03 R54). -/
theorem searchStream_getElem? {o j : Nat} (h : o + 1 ≤ s.spl.staging.length) (hj : j < (o + 1) * 588) :
    (searchStream o s)[j]? = some
      ⟨(s.slot (s.spl.staging.getD (j / 588) 0)).record.pairs.getD (j % 588) ⟨0#16, 0#16⟩,
        flaggedAt (s.slot (s.spl.staging.getD (j / 588) 0)).record.flags (j % 588)⟩ := by
  have index : j / 588 < o + 1 := by omega
  have staged : (s.spl.staging.take (o + 1))[j / 588]? = some (s.spl.staging.getD (j / 588) 0) := by
    rw [List.getElem?_take_of_lt index, List.getD_eq_getElem?_getD, List.getElem?_eq_getElem (by omega)]
    rfl
  unfold searchStream
  rw [getElem?_flatMap_uniform (n := 588) (by omega) (fun _ => markedPairs_length _ 0), staged]
  exact markedPairs_zero _ (by omega)

theorem searchStream_length {o : Nat} (h : o + 1 ≤ s.spl.staging.length) : (searchStream o s).length = (o + 1) * 588 := by
  unfold searchStream
  simp only [List.length_flatMap, markedPairs_length, List.map_const', List.sum_replicate, List.length_take]
  rw [Nat.min_eq_left h]
  rfl

/-- A search is accepted at `p` exactly where `p` is the best candidate's place and the candidate is good enough (03 R56). -/
theorem searchOutcome_eq_some {q : Search} {o p : Nat} : searchOutcome q o s = some p ↔
    let best := bestCandidate q.window q.tolerance (expectedPosition o q.window.length) (searchStream o s)
    usable q.window ≤ best.2 + q.mismatches ∧ best.1 = p := by
  unfold searchOutcome
  dsimp only
  split
  · rename_i h
    simp [h]
  · rename_i h
    simp [h]

/-! ## The window -/

/-- What a step of the gathering holds: the last `w` of the pairs seen so far (03 R53). -/
theorem gathered_rtake (w : Nat) (avail seen : List MarkedPair) :
    avail.drop (avail.length - (w - (seen.rtake w).length)) ++ seen.rtake w = (avail ++ seen).rtake w := by
  unfold List.rtake
  rw [List.drop_append, List.length_append, List.length_drop]
  refine congrArg₂ (· ++ ·) ?_ ?_
  · by_cases h : seen.length ≤ w
    · congr 1
      omega
    · exact (List.drop_eq_nil_of_le (by omega)).trans (List.drop_eq_nil_of_le (by omega)).symm
  · congr 1
    omega

/-- Once `w` pairs are held, those before them do not matter. -/
theorem rtake_append_of_le {w : Nat} {seen : List MarkedPair} (before : List MarkedPair) (h : w ≤ seen.length) :
    (before ++ seen).rtake w = seen.rtake w := by
  unfold List.rtake
  rw [List.drop_append, List.length_append, List.drop_eq_nil_of_le (by omega), List.nil_append]
  congr 1
  omega

/-- The gathering stops at the entry `x`, which stands behind a seam or is the lane's head, those after it having none (03
R53). -/
theorem gatherWindow_eq {w : Nat} {lo : Entry → Nat} {recOf : Nat → Sector} {x : Entry} {before : List Entry}
    (hx : x.seam ≠ .none ∨ before = []) (after : List Entry) (ha : ∀ e ∈ after, e.seam = .none) (seen : List MarkedPair) :
    gatherWindow w lo recOf (after ++ x :: before) (seen.rtake w)
      = (((x :: after.reverse).flatMap fun e => markedPairs (recOf e.slot) (lo e)) ++ seen).rtake w := by
  induction after generalizing seen with
  | nil =>
    rw [List.nil_append]
    unfold gatherWindow
    dsimp only
    rw [gathered_rtake]
    simp only [List.reverse_nil, List.flatMap_cons, List.flatMap_nil, List.append_nil]
    split
    · rename_i k
      obtain rfl := hx.resolve_left (not_not.mpr k.2)
      rfl
    · rfl
  | cons e after ih =>
    rw [List.cons_append]
    unfold gatherWindow
    dsimp only
    rw [gathered_rtake]
    have split_off : ((x :: (e :: after).reverse).flatMap fun e => markedPairs (recOf e.slot) (lo e)) ++ seen
        = ((x :: after.reverse).flatMap fun e => markedPairs (recOf e.slot) (lo e))
          ++ (markedPairs (recOf e.slot) (lo e) ++ seen) := by
      simp [List.flatMap_append]
    rw [split_off]
    split
    · exact ih (fun f hf => ha f (List.mem_cons_of_mem _ hf)) _
    · rename_i k
      have full : w ≤ (markedPairs (recOf e.slot) (lo e) ++ seen).length := by
        have short : ¬ ((markedPairs (recOf e.slot) (lo e) ++ seen).rtake w).length < w := fun n =>
          k ⟨n, ha e (List.mem_cons_self ..)⟩
        unfold List.rtake at short
        rw [List.length_drop] at short
        omega
      rw [rtake_append_of_le _ full]

/-- The head entry alone is the one at the play position, a lane listing no slot twice (01 R2, 03 R53). -/
theorem firstAhead_eq {l : Lane} {e : Entry} (hn : (l.entries.map (·.slot)).Nodup) (he : e ∈ l.entries) :
    firstAhead l e = if l.entries.head? = some e then l.playPos.getD e.offset else e.offset := by
  unfold firstAhead
  cases h : l.entries with
  | nil => rfl
  | cons f rest =>
    have same : f.slot = e.slot ↔ f = e := by
      rw [h] at hn he
      exact ⟨fun k => List.inj_on_of_nodup_map hn (List.mem_cons_self ..) he k, fun k => by rw [k]⟩
    dsimp only
    simp only [same, List.head?_cons, Option.some_inj]

/-- The window is the lane's last `w` pairs from the entry at index `k` on, the last one behind a seam (03 R53). -/
theorem windowOf_eq {w k : Nat} (hk : k < (s.lane z).entries.length)
    (after : ∀ i e, (s.lane z).entries[i]? = some e → k < i → e.seam = .none)
    (seam : ∀ e, (s.lane z).entries[k]? = some e → e.seam ≠ .none ∨ k = 0) :
    windowOf z w s = (((s.lane z).entries.drop k).flatMap fun e =>
      markedPairs (s.slot e.slot).record (firstAhead (s.lane z) e)).rtake w := by
  have parts : (s.lane z).entries.reverse
      = ((s.lane z).entries.drop (k + 1)).reverse ++ (s.lane z).entries[k] :: ((s.lane z).entries.take k).reverse := by
    conv_lhs => rw [← List.take_append_drop k (s.lane z).entries, List.drop_eq_getElem_cons hk]
    simp
  have none_after : ∀ e ∈ ((s.lane z).entries.drop (k + 1)).reverse, e.seam = .none := by
    intro e he
    obtain ⟨i, hi⟩ := List.mem_iff_getElem?.mp (List.mem_reverse.mp he)
    rw [List.getElem?_drop] at hi
    exact after _ e hi (by omega)
  have stop : (s.lane z).entries[k].seam ≠ .none ∨ ((s.lane z).entries.take k).reverse = [] :=
    (seam _ (List.getElem?_eq_getElem hk)).imp id fun h => by rw [h]; rfl
  have gathered := gatherWindow_eq (w := w) (lo := firstAhead (s.lane z)) (recOf := fun n => (s.slot n).record) stop _
    none_after []
  unfold windowOf
  dsimp only
  rw [parts, List.drop_eq_getElem_cons hk]
  rw [List.reverse_reverse, List.append_nil, List.rtake_nil] at gathered
  exact gathered

/-- Settles O25: the best of the candidates by `bestBelow_bestCandidate`, once over any stream and once over the staged pairs,
and the window by `windowOf_eq`. -/
theorem searchTakesTheBestCandidate : Obligations.SearchTakesTheBestCandidate := by
  unfold Obligations.SearchTakesTheBestCandidate
  intro pairScore
  refine ⟨?_, ?_, ?_⟩
  · intro ref st tol expected _ score far best
    have scores : score = fun p => scoreHere tol ref (st.drop p) := funext fun p => scoreHere_count
      (fun i x y hx hy => by
        rw [List.getElem?_drop] at hy
        simp only [hx, hy]
        rfl)
      (fun i x hx hy => by
        rw [List.getElem?_drop] at hy
        simp only [hx, hy])
    obtain ⟨hlt, hscore, hbest⟩ := bestBelow_bestCandidate ref tol expected st
    rw [scores]
    exact ⟨Nat.lt_succ_iff.mp hlt, hscore, fun p hp => hbest p (Nat.lt_succ_of_le hp)⟩
  · intro q o s ho hw at_ last score far enough
    have length := searchStream_length ho
    have lastEq : (searchStream o s).length - q.window.length = last := by rw [length]
    have scores : ∀ p, p ≤ last → score p = scoreHere q.tolerance q.window ((searchStream o s).drop p) := fun p hp => by
      have stream : ∀ i x, q.window[i]? = some x → ((searchStream o s).drop p)[i]? = some (at_ (p + i)) := by
        intro i x hx
        obtain ⟨hi, -⟩ := List.getElem?_eq_some_iff.mp hx
        rw [List.getElem?_drop]
        exact searchStream_getElem? ho (by omega)
      refine scoreHere_count (fun i x y hx hy => ?_) fun i x hx hy => ?_
      · rw [stream i x hx] at hy
        cases hy
        simp only [hx]
        rfl
      · rw [stream i x hx] at hy
        cases hy
    have best := bestBelow_bestCandidate q.window q.tolerance (expectedPosition o q.window.length) (searchStream o s)
    rw [lastEq] at best
    exact (best.congr fun p hp => (scores p (Nat.le_of_lt_succ hp)).symm).accepted fun p => searchOutcome_eq_some
  · intro z w k s hnodup after seam first ahead hk
    rw [windowOf_eq hk after seam]
    have aheadEq : ((s.lane z).entries.drop k).flatMap (fun e =>
        markedPairs (s.slot e.slot).record (firstAhead (s.lane z) e)) = ahead := by
      refine List.flatMap_congr fun e he => ?_
      rw [markedPairs_eq, firstAhead_eq hnodup (List.mem_of_mem_drop he)]
      rfl
    rw [aheadEq]
    rfl

end Sys2Proof.Safety
end

-- ==== The pickup after a splice attempt ====
section
/-! SUPPORT. What RSC makes of the outstanding run once a splice attempt has resolved: at most one run is cut and one issued (02
R23, R40, R42; 03 R61). -/

namespace Sys2Proof.Safety

open Sys2Proof.Machine

variable {s t u : State} {z : Zone} {q x : Run}

/-! ## A run just granted is not preempted -/

theorem demandOf_issueRun (h : s.splice z = none) (y : Zone) : demandOf y (issueRun z s) = demandOf y s := by
  have splice : (issueRun z s).splice = s.splice := by
    funext y
    rw [issueRun_splice]
    split
    · rename_i e
      rw [e, h]
      rfl
    · rfl
  unfold demandOf isOpen appendingEnd refillOf cover stagingHeldByOther
  rw [splice, issueRun_lane]
  rfl

/-- The pickup goes to the lower class (02 R40). -/
theorem granted_least (h : granted s = some z) :
    ∃ c, s.rsc.demand.get z = some c ∧ ∀ d, s.rsc.demand.get z.other = some d → c ≤ d := by
  unfold granted at h
  split at h
  · cases h
  · rename_i c ha hb
    cases h
    refine ⟨c, ha, fun d hd => ?_⟩
    rw [show s.rsc.demand.get Zone.a.other = s.rsc.demand.b from rfl, hb] at hd
    cases hd
  · rename_i c ha hb
    cases h
    refine ⟨c, hb, fun d hd => ?_⟩
    rw [show s.rsc.demand.get Zone.b.other = s.rsc.demand.a from rfl, ha] at hd
    cases hd
  · rename_i c d ha hb
    have least : (z = .a → c ≤ d) ∧ (z = .b → d ≤ c) := by
      split at h
      · cases h
        exact ⟨fun _ => by omega, fun k => Zone.noConfusion k⟩
      · split at h
        · cases h
          exact ⟨fun k => Zone.noConfusion k, fun _ => by omega⟩
        · exact ⟨fun _ => by omega, fun _ => by omega⟩
    cases z with
    | a => exact ⟨c, ha, fun e he => by cases hb.symm.trans he; exact least.1 rfl⟩
    | b => exact ⟨d, hb, fun e he => by cases ha.symm.trans he; exact least.2 rfl⟩

theorem newRun_refill (h : (newRun z s).purpose = .refill) : s.splice z = none := by
  cases k : s.splice z with
  | none => rfl
  | some r =>
    change (runPlan z s).1 = .refill at h
    unfold runPlan at h
    rw [k] at h
    cases h

theorem preempts_idle (h : s.rsc.run = none) : preempts s = false := by
  unfold preempts
  rw [h]

/-- A REFILL run is granted to no zone while the other is in a lower class (02 R40, R42). -/
theorem not_preempts_grant (h : s.rsc.run = none) : preempts (grant (refresh s)) = false := by
  unfold grant
  split
  · split
    · exact preempts_idle h
    · rename_i y hy
      by_contra hp
      unfold preempts at hp
      rw [Bool.not_eq_false, show (refresh (issueRun y (refresh s))).rsc.run = some (newRun y (refresh s)) from rfl] at hp
      simp only [Bool.and_eq_true, beq_iff_eq] at hp
      obtain ⟨⟨refill, own⟩, need⟩ := hp
      have unspliced : (refresh s).splice y = none := newRun_refill refill
      have owner : (newRun y (refresh s)).owner = y := rfl
      obtain ⟨c, hc, least⟩ := granted_least hy
      rw [refresh_demand] at hc least
      rw [owner, refresh_demand, demandOf_issueRun unspliced, demandOf_refresh] at own need
      rw [hc] at own
      have own : c = 5 := beq_iff_eq.mp own
      cases k : demandOf y.other s with
      | none =>
        rw [k] at need
        cases need
      | some d =>
        rw [k] at need
        have := least d k
        have := of_decide_eq_true need
        omega
  · exact preempts_idle h

theorem not_preempts_cutRun (s : State) : preempts (cutRun s) = false := not_preempts_grant (dropRun_run true s)

/-- A run preempted leaves the other zone with demand, so not IDLE (02 R39, R42). -/
theorem busy_of_preempts (h : s.rsc.run = some q) (hp : preempts (refresh s) = true) :
    (s.ctl q.owner.other).state ≠ .idle := by
  intro idle
  have noDemand : demandOf q.owner.other s = none := by
    unfold demandOf
    dsimp only
    rw [if_pos (.inl idle)]
  unfold preempts at hp
  rw [refresh_run, h] at hp
  dsimp only at hp
  rw [refresh_demand, refresh_demand, noDemand] at hp
  simp at hp

/-! ## RSC's recomputation, and the test that follows it -/

theorem review_run_none (h : s.rsc.run = none) : review s = refresh s ∨ review s = grant (refresh s) := by
  unfold review
  dsimp only
  split
  · exact .inl rfl
  · right
    rw [if_pos]
    rw [refresh_run, h]
    rfl

theorem preemptTest_of_not (h : preempts s = false) : preemptTest s = s := by
  unfold preemptTest
  rw [h]
  rfl

theorem preemptTest_review_none (h : s.rsc.run = none) : preemptTest (review s) = review s := by
  refine preemptTest_of_not ?_
  obtain e | e := review_run_none h <;> rw [e]
  · exact preempts_idle h
  · exact not_preempts_grant h

theorem preemptTest_cutRun (s : State) : preemptTest (review (cutRun s)) = refresh (cutRun s) := by
  have e : review (cutRun s) = refresh (cutRun s) := review_of_fresh (fresh_endRun true id s)
  rw [e, preemptTest_of_not]
  have k := not_preempts_cutRun s
  have d : (refresh (cutRun s)).rsc.demand = (cutRun s).rsc.demand := fresh_endRun true id s
  unfold preempts at k ⊢
  rw [d]
  exact k

theorem preemptTest_review_some (h : s.rsc.run = some q) :
    preemptTest (review s) = if preempts (refresh s) then cutRun (refresh s) else refresh s := by
  unfold review
  dsimp only
  split
  · rfl
  · rw [if_neg (by rw [refresh_run, h]; exact Bool.false_ne_true)]
    split
    · exact preemptTest_of_not (not_preempts_cutRun _)
    · rename_i k
      exact preemptTest_of_not (Bool.eq_false_iff.mpr k)

/-! ## At most one run is issued -/

/-- No splice record has changed but by the issue of one REREAD run (03 R49). -/
def issuedOnce (s t : State) : Prop := ∀ y, t.splice y = s.splice y ∨ t.splice y = (s.splice y).map rereadIssued

theorem issuedOnce_refl (s : State) : issuedOnce s s := fun _ => .inl rfl

theorem issuedOnce.none (h : issuedOnce s t) (k : s.splice z = none) : t.splice z = none := by
  obtain e | e := h z <;> rw [e, k]
  rfl

theorem issuedOnce_grant (s : State) : issuedOnce s (grant s) := by
  unfold grant
  split
  · split
    · exact issuedOnce_refl s
    · rename_i y _
      intro x
      show (issueRun y s).splice x = _ ∨ (issueRun y s).splice x = _
      rw [issueRun_splice]
      split
      · rename_i e
        rw [e]
        exact .inr rfl
      · exact .inl rfl
  · exact issuedOnce_refl s

theorem dropRun_spl (halt : Bool) (s : State) : (dropRun halt s).spl = s.spl := by
  have halts : ∀ (i : Nat) (t : State), (haltRun halt i t).spl = t.spl := by
    intro i t
    unfold haltRun
    split
    · rfl
    · split <;> rfl
  unfold dropRun
  split
  · rfl
  · rename_i r _
    rw [halts, (onlyDelivery_sentByNow r.id _).spl]
    rfl

theorem issuedOnce_endRun (halt : Bool) (s : State) : issuedOnce s (endRun halt id s) := by
  have h := issuedOnce_grant (refresh (dropRun halt s))
  have e : (refresh (dropRun halt s)).splice = s.splice := by
    unfold State.splice
    rw [show (refresh (dropRun halt s)).spl = s.spl from dropRun_spl halt s]
  unfold issuedOnce at h
  rw [e] at h
  exact h

theorem issuedOnce_cutRun (s : State) : issuedOnce s (cutRun s) := issuedOnce_endRun true s

theorem issuedOnce_review (s : State) : issuedOnce s (review s) := by
  unfold review
  dsimp only
  split
  · exact issuedOnce_refl s
  · split
    · exact issuedOnce_grant (refresh s)
    · split
      · exact issuedOnce_cutRun (refresh s)
      · exact issuedOnce_refl s

theorem one_le_boundByLeadOut (count wanted : Nat) (s : State) : 1 ≤ boundByLeadOut count wanted s := by
  unfold boundByLeadOut
  split <;> exact Nat.le_max_left _ _

/-- A run that a cut has let be issued has sectors to come (02 R41). -/
theorem cutRun_incomplete (h : (cutRun s).rsc.run = some q) : q.received ≠ q.count := by
  have dropped : (refresh (dropRun true s)).rsc.run = none := dropRun_run true s
  change (grant (refresh (dropRun true s))).rsc.run = some q at h
  unfold grant at h
  split at h
  · split at h
    · rw [dropped] at h
      cases h
    · rename_i y _
      cases h
      have count : 1 ≤ (newRun y (refresh (dropRun true s))).count := one_le_boundByLeadOut _ _ _
      exact fun e => Nat.not_succ_le_zero 0 (count.trans e.ge)
  · rw [dropped] at h
    cases h

/-! ## The zone's own REREAD run is cut -/

/-- What a cut of the outstanding run leaves (02 R23), its READ RUN not waiting at the idle line. -/
theorem cutRun_spec (h : sent s) (hr : s.rsc.run = some x) : runOver x s (cutRun s) ∧ halted x s (cutRun s) := by
  obtain ⟨h1, h2, -⟩ := endRun_spec true hr (h x hr)
  exact ⟨h1, h2 rfl⟩

theorem ownsReread_iff : ownsReread z s = true ↔ ∃ x, s.rsc.run = some x ∧ x.purpose = .reread ∧ x.owner = z := by
  unfold ownsReread
  cases s.rsc.run with
  | none => simp
  | some x => simp

theorem review_cutReread (z : Zone) (s : State) :
    review (cutReread z s) = if ownsReread z s then refresh (cutRun s) else review s := by
  unfold cutReread
  split
  · exact review_of_fresh (fresh_endRun true id s)
  · rfl

theorem review_cutReread_spec (h : sent s) :
    onlyScheduling s (review (cutReread z s)) ∧ issuedOnce s (review (cutReread z s))
      ∧ ∀ x, s.rsc.run = some x → x.purpose = .reread → x.owner = z →
        runOver x s (review (cutReread z s)) ∧ halted x s (review (cutReread z s)) := by
  rw [review_cutReread]
  split
  · exact ⟨onlyScheduling_trans (onlyScheduling_cutSent h) (onlyScheduling_refresh _), issuedOnce_cutRun s,
      fun x hr _ _ => cutRun_spec h hr⟩
  · rename_i k
    exact ⟨onlyScheduling_review h, issuedOnce_review s, fun x hr hp ho => absurd (ownsReread_iff.mpr ⟨x, hr, hp, ho⟩) k⟩

/-! ## What becomes of the run at a join -/

/-- A REREAD run that goes on as a REFILL run from address `a` (03 R61). -/
def converted (x : Run) (a : Nat) : Run :=
  { x with
    purpose := .refill, expected := a, settleLeft := 0, absentStreak := 0, backStreak := 0, addressRead := true }

/-- The run has been dealt with, RSC has recomputed the classes, and a converted run may have been preempted (03 R61; 02 R39,
R42). -/
def dealt (z : Zone) (whole : Bool) (tail : Nat) (s : State) : State := preemptTest (review (dealRun z whole tail s))

/-- The zone's own run is converted: every sector was moved and the lane goes on at `tail` (03 R61). -/
def converts (z : Zone) (whole : Bool) (tail : Nat) (s : State) : Prop :=
  whole = true ∧ isOpen z s = true ∧ (s.lane z).tail = some tail

theorem dealt_converts {whole : Bool} {tail : Nat} (hr : s.rsc.run = some x) (hp : x.purpose = .reread) (ho : x.owner = z)
    (h : converts z whole tail s) : dealt z whole tail s =
      if preempts (refresh (s.setRun (some (converted x tail)))) then cutRun (refresh (s.setRun (some (converted x tail))))
      else refresh (s.setRun (some (converted x tail))) := by
  have e : dealRun z whole tail s = s.setRun (some (converted x tail)) := by
    unfold dealRun
    rw [hr]
    dsimp only
    rw [if_pos ⟨hp, ho⟩]
    exact if_pos h
  unfold dealt
  rw [e]
  exact preemptTest_review_some (q := converted x tail) rfl

theorem dealt_cut {whole : Bool} {tail : Nat} (hr : s.rsc.run = some x) (hp : x.purpose = .reread) (ho : x.owner = z)
    (h : ¬ converts z whole tail s) : dealt z whole tail s = refresh (cutRun s) := by
  have e : dealRun z whole tail s = cutRun s := by
    unfold dealRun
    rw [hr]
    dsimp only
    rw [if_pos ⟨hp, ho⟩]
    exact if_neg h
  unfold dealt
  rw [e]
  exact preemptTest_cutRun s

theorem dealt_other {whole : Bool} {tail : Nat} (h : ∀ x, s.rsc.run = some x → ¬ (x.purpose = .reread ∧ x.owner = z)) :
    dealt z whole tail s = preemptTest (review s) := by
  have e : dealRun z whole tail s = s := by
    unfold dealRun
    split
    · rfl
    · rename_i x hr
      exact if_neg (h x hr)
  unfold dealt
  rw [e]

theorem sent_converted {a : Nat} (h : sent s) (hr : s.rsc.run = some x) :
    sent (refresh (s.setRun (some (converted x a)))) := by
  intro y hy
  cases hy
  exact h x hr

/-- Whatever becomes of the run, it is the scheduler's work alone, and at most one run is issued. -/
theorem dealt_scheduling {whole : Bool} {tail : Nat} (h : sent s) :
    onlyScheduling s (dealt z whole tail s) ∧ issuedOnce s (dealt z whole tail s) := by
  by_cases own : ∃ x, s.rsc.run = some x ∧ x.purpose = .reread ∧ x.owner = z
  · obtain ⟨x, hr, hp, ho⟩ := own
    by_cases k : converts z whole tail s
    · rw [dealt_converts hr hp ho k]
      have conv : onlyScheduling s (refresh (s.setRun (some (converted x tail)))) :=
        onlyScheduling_trans (onlyScheduling_setRun _ s) (onlyScheduling_refresh _)
      split
      · exact ⟨onlyScheduling_trans conv (onlyScheduling_cutSent (sent_converted h hr)),
          issuedOnce_cutRun (refresh (s.setRun _))⟩
      · exact ⟨conv, issuedOnce_refl s⟩
    · rw [dealt_cut hr hp ho k]
      exact ⟨onlyScheduling_trans (onlyScheduling_cutSent h) (onlyScheduling_refresh _), issuedOnce_cutRun s⟩
  · rw [dealt_other fun x hr k => own ⟨x, hr, k⟩]
    cases hr : s.rsc.run with
    | none =>
      rw [preemptTest_review_none hr]
      exact ⟨onlyScheduling_review h, issuedOnce_review s⟩
    | some x =>
      rw [preemptTest_review_some hr]
      split
      · exact ⟨onlyScheduling_trans (onlyScheduling_refresh s) (onlyScheduling_cutSent (s := refresh s) h),
          issuedOnce_cutRun (refresh s)⟩
      · exact ⟨onlyScheduling_refresh s, issuedOnce_refl s⟩

theorem fresh_dealt {whole : Bool} {tail : Nat} (s : State) : fresh (dealt z whole tail s) := by
  unfold dealt preemptTest
  split
  · exact fresh_endRun true id _
  · exact fresh_review _

/-- The run `x` is over, with a READ HALT, and the run that follows it has sectors to come (02 R23). -/
def cutShort (x : Run) (s t : State) : Prop :=
  runOver x s t ∧ halted x s t ∧ ∀ q, t.rsc.run = some q → q.received ≠ q.count

/-- The zone's own run goes on as a REFILL run where it converts, unless the other zone preempts it, and is cut otherwise (03
R61; 02 R42). -/
theorem dealt_own {whole : Bool} {tail : Nat} (h : sent s) (hr : s.rsc.run = some x) (hp : x.purpose = .reread)
    (ho : x.owner = z) :
    (converts z whole tail s → dealt z whole tail s = refresh (s.setRun (some (converted x tail)))
        ∨ ((s.ctl z.other).state ≠ .idle ∧ cutShort x s (dealt z whole tail s)))
      ∧ (¬ converts z whole tail s → cutShort x s (dealt z whole tail s)) := by
  refine ⟨fun k => ?_, fun k => ?_⟩
  · rw [dealt_converts hr hp ho k]
    split
    · rename_i pre
      have busy := busy_of_preempts (q := converted x tail) rfl pre
      obtain ⟨over1, halt⟩ := cutRun_spec (x := converted x tail) (sent_converted (a := tail) h hr) rfl
      refine .inr ⟨?_, over1, halt, fun q hq => cutRun_incomplete hq⟩
      rw [← ho]
      exact busy
    · exact .inl rfl
  · rw [dealt_cut hr hp ho k]
    obtain ⟨over1, halt⟩ := cutRun_spec h hr
    exact ⟨over1, halt, fun q hq => cutRun_incomplete hq⟩

end Sys2Proof.Safety
end

-- ==== Staged sectors that are joined to a lane ====
section
/-! SUPPORT. What a VERIFIED join or an UNVERIFIED fallback leaves: the moved sectors, the end of the splice, the zone's answer,
and the run (03 R57, R59, R61, R62). -/

namespace Sys2Proof.Safety

open Sys2Proof.Machine

variable {s t v b : State} {z : Zone} {r : SpliceRec} {x : Run} {m a o : Nat} {seam : Seam} {moved slots : List Nat}

/-! ## Moves -/

theorem canMove_iff : canMove z a s = true ↔ movable z 0 a s := by
  unfold canMove movable
  cases appendingEnd z s <;> simp

theorem movable_congr {j : Nat} (hl : t.lane z = s.lane z) (hc : t.ctl z = s.ctl z) : movable z j a t ↔ movable z j a s := by
  unfold movable appendingEnd
  rw [hl, hc]

theorem movable_moveOne {n j c : Nat} : movable z j c (moveOne z n a o seam s) ↔ movable z (j + 1) c s := by
  have grown : ((moveOne z n a o seam s).lane z).entries.length = (s.lane z).entries.length + 1 := by
    unfold moveOne
    rw [State.setLane_lane_same]
    simp [Lane.append]
  have stop : appendingEnd z (moveOne z n a o seam s) = appendingEnd z s := rfl
  unfold movable
  rw [grown, stop, Nat.add_assoc, Nat.add_comm 1 j]

/-- The moves go on for as long as the sectors can be moved (03 R57, R59). -/
theorem moveStaged_movable (z : Zone) (ns : List Nat) (a o : Nat) (seam : Seam) (s : State) :
    (∀ j, j < (moveStaged z ns a o seam s).1 → movable z j (a + j) s)
      ∧ ((moveStaged z ns a o seam s).1 = ns.length
        ∨ ¬ movable z (moveStaged z ns a o seam s).1 (a + (moveStaged z ns a o seam s).1) s) := by
  induction ns generalizing a o seam s with
  | nil => exact ⟨fun j hj => absurd hj (Nat.not_lt_zero j), .inl rfl⟩
  | cons n ns ih =>
    obtain ⟨h1, h2⟩ := ih (a + 1) 0 .none (moveOne z n a o seam s)
    simp only [movable_moveOne] at h1 h2
    unfold moveStaged
    split
    · rename_i k
      dsimp only
      refine ⟨fun j hj => ?_, h2.imp (congrArg (· + 1)) fun n k => n ?_⟩
      · cases j with
        | zero => exact canMove_iff.mp k
        | succ j =>
          rw [← Nat.add_assoc, Nat.add_right_comm]
          exact h1 j (Nat.lt_of_succ_lt_succ hj)
      · rw [Nat.add_assoc, Nat.add_comm 1]
        exact k
    · rename_i k
      exact ⟨fun j hj => absurd hj (Nat.not_lt_zero j), .inr fun n => k (canMove_iff.mpr n)⟩

/-- A lane to which a sector has been moved has no pending boundary (01 R8). -/
theorem moveStaged_boundary (z : Zone) (ns : List Nat) (a o : Nat) (seam : Seam) (s : State)
    (h : (moveStaged z ns a o seam s).1 ≠ 0 ∨ (s.lane z).boundary ≠ .pending) :
    ((moveStaged z ns a o seam s).2.lane z).boundary ≠ .pending := by
  induction ns generalizing a o seam s with
  | nil => exact h.resolve_left (not_not.mpr rfl)
  | cons n ns ih =>
    unfold moveStaged at h ⊢
    split
    · refine ih _ _ _ _ (.inr ?_)
      unfold moveOne
      rw [State.setLane_lane_same]
      exact append_boundary _ _
    · rename_i k
      rw [if_neg k] at h
      exact h.resolve_left (not_not.mpr rfl)

/-- The entries of moved sectors, written out: the first carries the offset and the seam (03 R57, R59). -/
theorem movedEntries_cons (track n : Nat) (ns : List Nat) (a o : Nat) (seam : Seam) :
    movedEntries track (n :: ns) a o seam = ⟨n, a, track, o, seam⟩ ::
      (List.range ns.length).map fun j => (⟨ns.getD j 0, a + 1 + j, track, 0, .none⟩ : Entry) := by
  induction ns generalizing n a o seam with
  | nil => rfl
  | cons n' ns ih =>
    unfold movedEntries
    rw [ih, List.length_cons, List.range_succ_eq_map, List.map_cons, List.map_map]
    congr 2
    refine List.map_congr_left fun j _ => ?_
    simp only [Function.comp_apply, List.getD_cons_succ]
    congr 1
    omega

/-! ## The store, the end of the splice, and the zone's answer -/

theorem joinedStore_record (z : Zone) (k : Nat) (slots : List Nat) (a o : Nat) (seam : Seam) (s : State) (n : Nat) :
    ((joinedStore z k slots a o seam s).slot n).record = (s.slot n).record := by
  have drops : ∀ ns, ((dropHolds ns (moveStaged z slots a o seam s).2).slot n).record = (s.slot n).record := by
    intro ns
    rw [(keepsPlay_dropHolds ns _).records n, moveStaged_only, State.setLane_slot]
  exact drops _

/-- With no splice to abandon and no boundary read over, the answer to an appended entry is the arming and the zone's tests. -/
theorem settleTail_unspliced (hb : (s.lane z).boundary ≠ .pending) (hs : s.splice z = none) :
    settleTail z s = zoneTests z (armNow z s) := by
  unfold settleTail abandonIfMoved
  rw [armOrReadOver_of_not_pending hb, show (armNow z s).splice z = none by rw [armNow_only]; exact hs]

/-- The answer to an entry in a lane whose zone has no splice: arming, and the zone PLAYING where its tests say so. -/
theorem settleTail_occupied (hb : (s.lane z).boundary ≠ .pending) (he : (s.lane z).entries ≠ []) (hs : s.splice z = none) :
    settleTail z s = armNow z s ∨ settleTail z s = enterState z .playing .cover (armNow z s) := by
  have stays : runOut z (armNow z s) = false := by
    unfold runOut
    rw [(armNow_keeps z s).1, List.isEmpty_eq_false_iff.mpr he]
    rfl
  rw [settleTail_unspliced hb hs]
  unfold zoneTests
  split
  · split
    · exact .inr rfl
    · rw [stays]
      exact .inl rfl
  · exact .inl rfl

theorem zoneOnly_of_onlyReports (z : Zone) (h : onlyReports s t) : zoneOnly z s t :=
  ⟨by rw [h], h.lane ▸ rfl, h.ctl ▸ rfl, h.conc ▸ rfl⟩

/-- A report that waits still waits once another is posted (11 R163). -/
theorem mem_reports_post {rep : Report} (other : Report) (h : rep ∈ s.dlp.reports) : rep ∈ (post other s).dlp.reports := by
  unfold post
  split
  · unfold placeReport
    dsimp only
    rw [List.mem_append, List.mem_cons]
    rw [← List.take_append_drop (s.dlp.reports.length - if placesBack other s = 0 then 0
      else Config.freeChoice s.free % (placesBack other s + 1)) s.dlp.reports, List.mem_append] at h
    exact h.imp id .inr
  · exact h

theorem armNow_post (rep : Report) (z : Zone) (s : State) : post rep (armNow z s) = armNow z (post rep s) := by
  have e : toArm z (post rep s) = toArm z s := by
    unfold toArm chosenNext chooseNext nextCtx
    rw [post_ctl, post_lane, post_ttb]
  have level : ∀ t : State, t.dlp = s.dlp → levelOf rep t = levelOf rep s := fun t h => by
    unfold levelOf
    rw [h]
  cases k : toArm z s with
  | none => rw [armNow_none k, armNow_none (e.trans k)]
  | some n =>
    rw [armNow_some k, armNow_some (e.trans k), post_ctl, post_lane]
    unfold post
    rw [level _ (by rfl)]
    split
    · rename_i h
      rw [if_pos (by exact h)]
      rfl
    · rename_i h
      rw [if_neg (by exact h)]

/-- The end of a splice and the arming that comes before it may be taken in either order. -/
theorem endSplice_armNow (z : Zone) (out : SpliceOutcome) (ja jo : Option Nat) (i : Option Int) (s : State) :
    endSplice z out ja jo i (armNow z s) = armNow z (endSplice z out ja jo i s) := by
  have splice : (armNow z s).splice z = s.splice z := by rw [armNow_only]; rfl
  have discard : (armNow z s).setSplice z none = armNow z (s.setSplice z none) := by
    have e : toArm z (s.setSplice z none) = toArm z s := rfl
    unfold armNow
    rw [e]
    cases toArm z s <;> rfl
  unfold endSplice
  rw [splice]
  split
  · rfl
  · rw [discard, armNow_post]

/-- What a splice's end leaves, where there is one (03 R62). -/
theorem endSplice_some {out : SpliceOutcome} {ja jo : Option Nat} {i : Option Int} (h : s.splice z = some r) :
    endSplice z out ja jo i s =
      post (.splice ⟨z, r.cause, out, r.tail, r.cover, r.attemptsMade, ja, jo, i⟩) (s.setSplice z none) := by
  unfold endSplice
  rw [h]

/-- What the zones play from is as it was but for the map: where a splice attempt resolves, and where its command began. -/
structure sameGround (s b : State) : Prop where
  lane : b.lane = s.lane
  ctl  : b.ctl = s.ctl
  conc : b.conc = s.conc
  ttb  : b.ttb = s.ttb
  mmn  : b.mmn = s.mmn

/-- Staged sectors `moved` are at the lane's end from address `a` on, the last at `a + m`, the splice is over and staging empty
(03 R57, R59, R62); the lane began as in `s`, and the join in the state `b`. -/
structure Rejoined (z : Zone) (m a o : Nat) (seam : Seam) (moved : List Nat) (rep : Report) (s b t : State) : Prop where
  entries : (t.lane z).entries = (s.lane z).entries ++ movedEntries ((s.lane z).appending.getD 0) moved a o seam
  splice  : t.splice z = none
  staging : t.spl.staging = []
  search  : t.spl.search = none
  tail    : tailBehind z (a + m) s t
  other   : zoneKept z.other s t
  disc    : sameDisc s t
  sfm     : t.sfm = b.sfm
  records : ∀ n, (t.slot n).record = (b.slot n).record
  told    : b.dlp.threshold < levelOf rep b → rep ∈ t.dlp.reports

/-- The scheduler's work leaves it so. -/
theorem Rejoined.scheduled {rep : Report} (h : Rejoined z m a o seam moved rep s b v) (w : onlyScheduling v t)
    (q : issuedOnce v t) : Rejoined z m a o seam moved rep s b t := by
  have kept := w.keepsPlay
  have lane := kept.lane z
  have ctl : t.ctl z = v.ctl z := (kept.zoneKept z).1
  unfold laneKept at lane
  refine ⟨by rw [lane]; exact h.entries, q.none h.splice, ?_, ?_, ?_, zoneKept_trans h.other (kept.zoneKept z.other),
    ⟨kept.ttb.trans h.disc.1, kept.mmn.trans h.disc.2⟩, kept.sfm.trans h.sfm, fun n => (kept.records n).trans (h.records n),
    fun k => ?_⟩
  · exact w.atWork.staging.trans h.staging
  · exact w.atWork.search.trans h.search
  · have tail := h.tail
    unfold tailBehind at tail ⊢
    rw [lane, ctl]
    exact tail
  · rw [w.tellsAlike.reports]
    exact h.told k

/-- The run awaits what becomes of it: RSC and the requests are as in `b`, and the lane is open behind the last moved sector
exactly where it goes on there (03 R61). -/
structure RunAwaits (z : Zone) (last : Nat) (s b v : State) : Prop where
  rsc      : v.rsc = b.rsc
  line     : v.dlp.line = b.dlp.line
  requests : v.dlp.requests = b.dlp.requests
  goes     : goesOnBehind z last s ↔ (v.lane z).tail = some (last + 1) ∧ isOpen z v = true

/-- The zone's answer to the moved sectors, the splice having ended. -/
theorem rejoined_settleTail {out : SpliceOutcome} {ja jo : Option Nat} {i : Option Int} (k : Nat) (g : sameGround s b)
    (hr : b.splice z = some r) (hm : (moveStaged z slots a o seam b).1 = m + 1) :
    Rejoined z m a o seam (slots.take (m + 1)) (.splice ⟨z, r.cause, out, r.tail, r.cover, r.attemptsMade, ja, jo, i⟩) s b
        (settleTail z (endSplice z out ja jo i (joinedStore z k slots a o seam b)))
      ∧ RunAwaits z (a + m) s b (settleTail z (endSplice z out ja jo i (joinedStore z k slots a o seam b))) := by
  obtain ⟨-, mentries, -, mtail⟩ := moveStaged_spec z slots a o seam b
  have boundary := moveStaged_boundary z slots a o seam b (.inl (by omega))
  obtain ⟨mtail, mseam⟩ := mtail (by omega)
  rw [hm] at mentries mtail
  have jlane := joinedStore_lane z k slots a o seam b
  have jother := joinedStore_lane_other z k slots a o seam b
  have jrecords := joinedStore_record z k slots a o seam b
  have jonly := joinedStore_only z k slots a o seam b
  generalize joinedStore z k slots a o seam b = j at *
  rw [← jlane] at mentries boundary mtail mseam
  have jsplice : j.splice z = some r := by rw [jonly]; exact hr
  rw [endSplice_some jsplice]
  generalize hrep : Report.splice ⟨z, r.cause, out, r.tail, r.cover, r.attemptsMade, ja, jo, i⟩ = rep
  have eo := onlyReports_post rep (j.setSplice z none)
  have etold : b.dlp.threshold < levelOf rep b → rep ∈ (post rep (j.setSplice z none)).dlp.reports := by
    intro h
    refine mem_post ?_
    rw [show levelOf rep (j.setSplice z none) = levelOf rep b by unfold levelOf; rw [jonly]; rfl,
      show (j.setSplice z none).dlp = b.dlp by rw [jonly]; rfl]
    exact h
  generalize post rep (j.setSplice z none) = e at eo etold
  have elane : e.lane = j.lane := eo.lane
  have ectl : e.ctl = s.ctl := eo.ctl.trans (by rw [← g.ctl, jonly]; rfl)
  have ettb : e.ttb = s.ttb := eo.ttb.trans (by rw [← g.ttb, jonly]; rfl)
  have entries : (e.lane z).entries ≠ [] := by
    rw [elane, mentries]
    cases slots with
    | nil => simp [moveStaged] at hm
    | cons n ns => simp [movedEntries]
  have eboundary : (e.lane z).boundary ≠ .pending := by rw [elane]; exact boundary
  have esplice : e.splice z = none := by rw [eo.splice, State.setSplice_splice_same]
  have settled := settled_settleTail eboundary entries esplice
  have told : ∀ y, y ∈ e.dlp.reports → y ∈ (settleTail z e).dlp.reports := by
    intro y hy
    have armed : y ∈ (armNow z e).dlp.reports := by rw [armNow_only]; exact hy
    obtain k | k := settleTail_occupied eboundary entries esplice <;> rw [k]
    · exact armed
    · exact mem_reports_post _ armed
  generalize settleTail z e = v at settled told
  have only := zoneOnly_trans (zoneOnly_of_onlyReports z eo) settled.only
  have behind : Behind z (a + m) s e :=
    ⟨by rw [elane, mtail]; rfl, by rw [elane, mseam], by rw [ectl], ettb⟩
  refine ⟨?_, ?_⟩
  · exact {
      entries := by rw [settled.lane, (armNow_keeps z e).1, elane, mentries, g.lane]
      splice := by rw [show v.splice = (j.setSplice z none).splice by rw [only.rest]; rfl, State.setSplice_splice_same]
      staging := by rw [only.rest, jonly]; rfl
      search := by rw [only.rest, jonly]; rfl
      tail := behind.tailBehind (by rw [settled.lane]) (by rw [settled.ctl])
      other := ⟨by rw [settled.only.ctl, ectl], by rw [only.conc, ← g.conc, jonly]; rfl, by
        unfold laneKept
        rw [settled.only.lane, elane, jother, g.lane]⟩
      disc := ⟨by rw [only.rest, ← g.ttb, jonly]; rfl, by rw [only.rest, ← g.mmn, jonly]; rfl⟩
      sfm := by rw [only.rest, jonly]; rfl
      records := fun n => by
        rw [show v.slot n = j.slot n by rw [only.rest]; rfl]
        exact jrecords n
      told := fun h => told _ (etold h) }
  · exact {
      rsc := by rw [only.rest, jonly]; rfl
      line := by rw [only.rest, jonly]; rfl
      requests := by rw [only.rest, jonly]; rfl
      goes := behind.goesOn (by rw [settled.lane]) settled.ctl }

/-- A join or UNVERIFIED fallback by its parts (03 R57, R59, R61). -/
theorem joinStaged_eq (z : Zone) (k : Nat) (slots : List Nat) (a o : Nat) (seam : Seam) (report : Nat → State → State)
    (s : State) : joinStaged z k slots a o seam report s =
      dealt z ((moveStaged z slots a o seam s).1 != 0 && (moveStaged z slots a o seam s).1 == (s.spl.staging.drop k).length)
        (a + (moveStaged z slots a o seam s).1)
        (zoneTests z (report (moveStaged z slots a o seam s).1
          (if (moveStaged z slots a o seam s).1 = 0 then joinedStore z k slots a o seam s
            else armOrReadOver z (joinedStore z k slots a o seam s)))) := rfl

/-- A join or fallback that can move the first of its sectors (03 R57, R59, R61): the moves go on until the sectors end or one
cannot be moved, the zone answers, and the run is dealt with. -/
theorem joinStaged_moves {out : SpliceOutcome} {ja jo : Option Nat} {i : Option Int} {k n : Nat} {ns : List Nat}
    {report : Nat → State → State} (g : sameGround s b) (hr : b.splice z = some r) (h : movable z 0 a s)
    (hrep : ∀ c t, c ≠ 0 → report c t = endSplice z out ja jo i t) :
    ∃ m v, m ≤ ns.length ∧ (∀ j, j ≤ m → movable z j (a + j) s)
      ∧ (m = ns.length ∨ ¬ movable z (m + 1) (a + 1 + m) s)
      ∧ joinStaged z k (n :: ns) a o seam report b
        = dealt z (m + 1 == (b.spl.staging.drop k).length) (a + m + 1) v
      ∧ Rejoined z m a o seam (n :: ns.take m)
          (.splice ⟨z, r.cause, out, r.tail, r.cover, r.attemptsMade, ja, jo, i⟩) s b v
      ∧ RunAwaits z (a + m) s b v := by
  have same : ∀ j c, movable z j c b ↔ movable z j c s := fun j c => movable_congr (by rw [g.lane]) (by rw [g.ctl])
  obtain ⟨can, stops⟩ := moveStaged_movable z (n :: ns) a o seam b
  simp only [same] at can stops
  have first : (moveStaged z (n :: ns) a o seam b).1 ≠ 0 := by
    intro e
    rw [e] at stops
    exact stops.elim (fun k => by cases k) fun k => k h
  obtain ⟨m, hm⟩ := Nat.exists_eq_succ_of_ne_zero first
  have boundary := moveStaged_boundary z (n :: ns) a o seam b (.inl first)
  rw [← joinedStore_lane z k] at boundary
  have answer : zoneTests z (report (m + 1) (armOrReadOver z (joinedStore z k (n :: ns) a o seam b)))
      = settleTail z (endSplice z out ja jo i (joinedStore z k (n :: ns) a o seam b)) := by
    have ended : (endSplice z out ja jo i (joinedStore z k (n :: ns) a o seam b)).splice z = none := endSplice_splice z _ _ _ _ _
    have lane : (endSplice z out ja jo i (joinedStore z k (n :: ns) a o seam b)).lane
        = (joinedStore z k (n :: ns) a o seam b).lane := by
      unfold endSplice
      split
      · rfl
      · rw [post_lane]
        rfl
    rw [armOrReadOver_of_not_pending boundary, hrep _ _ (Nat.succ_ne_zero m), endSplice_armNow,
      settleTail_unspliced (by rw [lane]; exact boundary) ended]
  have dealtWith : joinStaged z k (n :: ns) a o seam report b
      = dealt z (m + 1 == (b.spl.staging.drop k).length) (a + m + 1)
        (settleTail z (endSplice z out ja jo i (joinedStore z k (n :: ns) a o seam b))) := by
    rw [← answer, joinStaged_eq, hm, if_neg (Nat.succ_ne_zero m)]
    rfl
  rw [hm] at can stops
  have taken : (n :: ns).take (m + 1) = n :: ns.take m := rfl
  obtain ⟨h1, h2⟩ := rejoined_settleTail (out := out) (ja := ja) (jo := jo) (i := i) k g hr hm
  have bound : m ≤ ns.length := by
    have := (moveStaged_spec z (n :: ns) a o seam b).1
    rw [hm, List.length_cons] at this
    omega
  refine ⟨m, _, bound, fun j hj => can j (Nat.lt_succ_of_le hj), ?_, dealtWith, taken ▸ h1, h2⟩
  refine stops.imp (fun e => Nat.succ.inj e) ?_
  rw [Nat.add_assoc, Nat.add_comm 1 m]
  exact id

/-! ## What becomes of the run -/

theorem sent_of_awaits {last : Nat} (h : RunAwaits z last s b v) (hs : sent b) : sent v :=
  sent_of_eq hs h.rsc h.line h.requests

/-- What follows a REREAD sector that has been taken: its run completes at its count, and the classes are recomputed (02 R23,
R25). -/
def afterStaged (t : State) : State :=
  match t.rsc.run with
  | none => review t
  | some q => if q.received = q.count then completeRun q t else review t

theorem cutShort.afterStaged (h : cutShort x s t) (hf : fresh t) : afterStaged t = refresh t := by
  obtain ⟨-, -, more⟩ := h
  unfold Safety.afterStaged
  split
  · exact review_of_fresh hf
  · rename_i q hq
    rw [if_neg (more q hq)]
    exact review_of_fresh hf

theorem afterStaged_refill (hr : s.rsc.run = some x) (hp : x.purpose ≠ .reread) (hf : fresh s) :
    afterStaged s = if x.received = x.count then endRun false id s else refresh s := by
  unfold afterStaged completeRun
  rw [hr]
  dsimp only
  rw [if_neg hp, review_of_fresh hf]

section
variable {y : State} {whole : Prop} {w : Bool} (h : RunAwaits z a s b v) (hs : sent b) (hr : b.rsc.run = some x)
  (hp : x.purpose = .reread) (ho : x.owner = z) (hw : w = true ↔ whole) (hc : v.ctl z.other = s.ctl z.other)
  (hid : b.rsc.nextId = y.rsc.nextId) (hq : b.dlp.requests = y.dlp.requests) (hl : b.rsc.stall = y.rsc.stall)
include h hs hr hp ho hw hc hid hq hl

/-- What `joinedRun` says of the run, for whatever is made of the state in which it goes on and of one in which it is cut. -/
theorem joinedRun_of_dealt {last : Prop} (f : State → State)
    (on : ∀ q, q = converted x (a + 1) → countsOn q last v.rsc.stall v (f (refresh (v.setRun (some q)))))
    (cut : cutShort x v (dealt z w (a + 1) v) →
      runOver x v (f (dealt z w (a + 1) v)) ∧ halted x v (f (dealt z w (a + 1) v))) :
    joinedRun z x a whole last s y (f (dealt z w (a + 1) v)) := by
  have goes : converts z w (a + 1) v ↔ whole ∧ goesOnBehind z a s := by
    unfold converts
    rw [h.goes, hw]
    tauto
  have requests : v.dlp.requests = y.dlp.requests := h.requests.trans hq
  have nextId : v.rsc.nextId = y.rsc.nextId := by rw [h.rsc]; exact hid
  have stall : v.rsc.stall = y.rsc.stall := by rw [h.rsc]; exact hl
  have over1 : ∀ {q t}, runOver q v t → runOver q y t := fun k => ⟨k.1, fun q hq => nextId ▸ k.2 q hq⟩
  have halts : ∀ {q t}, halted q v t → halted q y t := fun k => by
    unfold halted readRunWaits at k ⊢
    rw [← requests]
    exact k
  have unhalts : ∀ {q t}, unhalted q v t → unhalted q y t := fun k => by
    unfold unhalted at k ⊢
    rw [← requests]
    exact k
  have counts : ∀ {q t}, countsOn q last v.rsc.stall v t → countsOn q last y.rsc.stall y t := fun k =>
    ⟨fun n => (k.1 n).imp id fun ⟨k2, k3⟩ => ⟨k2.trans stall, k3.trans requests⟩,
      fun n => (k.2 n).imp over1 unhalts⟩
  obtain ⟨goOn, stops⟩ := dealt_own (whole := w) (tail := a + 1) (sent_of_awaits h hs) (by rw [h.rsc]; exact hr) hp ho
  unfold joinedRun
  dsimp only
  refine ⟨fun k => ?_, fun k => ?_⟩
  · obtain e | ⟨busy, c⟩ := goOn (goes.mpr k)
    · have converted1 := counts (on _ rfl)
      rw [← e] at converted1
      exact ⟨.inl converted1, fun _ => converted1⟩
    · obtain ⟨c1, c2⟩ := cut c
      rw [hc] at busy
      exact ⟨.inr ⟨over1 c1, halts c2⟩, fun idle => absurd idle busy⟩
  · obtain ⟨c1, c2⟩ := cut (stops fun n => k (goes.mp n))
    exact ⟨over1 c1, halts c2⟩

/-- No sector has come with the join: the run goes on with its count as it was. -/
theorem joinedRun_dealt : joinedRun z x a whole False s y (dealt z w (a + 1) v) :=
  joinedRun_of_dealt h hs hr hp ho hw hc hid hq hl id
    (fun _ _ => ⟨fun _ => ⟨rfl, rfl, rfl⟩, False.elim⟩) fun k => ⟨k.1, k.2.1⟩

/-- The join has come with a sector of the run, which completes where that was its last (02 R25). -/
theorem joinedRun_afterStaged :
    joinedRun z x a whole (x.received = x.count) s y (afterStaged (dealt z w (a + 1) v)) := by
  refine joinedRun_of_dealt h hs hr hp ho hw hc hid hq hl afterStaged (fun q hq' => ?_) fun k => ?_
  · subst hq'
    have sentOn : sent (refresh (v.setRun (some (converted x (a + 1))))) :=
      sent_converted (sent_of_awaits h hs) (by rw [h.rsc]; exact hr)
    rw [afterStaged_refill (s := refresh _) rfl Purpose.noConfusion (fresh_refresh _)]
    split
    · rename_i done
      obtain ⟨k1, -, k3, -⟩ := endRun_spec (s := refresh (v.setRun (some (converted x (a + 1))))) false rfl (sentOn _ rfl)
      exact ⟨fun more => absurd done more, fun _ => ⟨k1, k3 rfl⟩⟩
    · rename_i more
      exact ⟨fun _ => ⟨rfl, rfl, rfl⟩, fun done => absurd done more⟩
  · rw [k.afterStaged (fresh_dealt v)]
    exact ⟨k.1, k.2.1⟩

end

/-- What follows the join is the scheduler's work. -/
theorem Rejoined.afterStaged {last : Nat} {w : Bool} {rep : Report} (j : Rejoined z m a o seam moved rep s b v)
    (h : RunAwaits z last s b v) (hs : sent b) (hr : b.rsc.run = some x) (hp : x.purpose = .reread) (ho : x.owner = z) :
    Rejoined z m a o seam moved rep s b (Safety.afterStaged (dealt z w (last + 1) v)) := by
  have hv := sent_of_awaits h hs
  have hrv : v.rsc.run = some x := by rw [h.rsc]; exact hr
  obtain ⟨work, once⟩ := dealt_scheduling (z := z) (whole := w) (tail := last + 1) hv
  have dealtAs := j.scheduled work once
  have short : cutShort x v (dealt z w (last + 1) v) →
      Rejoined z m a o seam moved rep s b (Safety.afterStaged (dealt z w (last + 1) v)) := fun k => by
    rw [k.afterStaged (fresh_dealt v)]
    exact dealtAs.scheduled (onlyScheduling_refresh _) (issuedOnce_refl _)
  obtain ⟨goOn, stops⟩ := dealt_own (whole := w) (tail := last + 1) hv hrv hp ho
  by_cases k : converts z w (last + 1) v
  · obtain e | ⟨-, c⟩ := goOn k
    · rw [e] at dealtAs ⊢
      rw [afterStaged_refill (s := refresh _) rfl Purpose.noConfusion (fresh_refresh _)]
      split
      · exact dealtAs.scheduled (endRun_spec false rfl (sent_converted hv hrv _ rfl)).2.2.2.2 (issuedOnce_endRun false _)
      · exact dealtAs.scheduled (onlyScheduling_refresh _) (issuedOnce_refl _)
    · exact short c
  · exact short (stops k)

end Sys2Proof.Safety
end

-- ==== Failed attempts and the fallbacks ====
section
/-! SUPPORT. What a failed attempt leaves: the record that waits again, the UNVERIFIED fallback, the GAP fallback (03 R58 to
R61). -/

namespace Sys2Proof.Safety

open Sys2Proof.Machine

variable {s t v b : State} {z : Zone} {r : SpliceRec} {x : Run}

/-! ## The score, and the record that waits again -/

/-- The state in which a failed attempt has been scored (03 R58). -/
def failureScored (r : SpliceRec) (s : State) : State := healthEvent (spliceGranule r.tail) 16 .spliceFail s

theorem failureScored_only (r : SpliceRec) (s : State) :
    onlyReports { s with sfm := (failureScored r s).sfm } (failureScored r s) := healthEvent_only _ _ _ s

theorem failureScored_sfm (h : b.sfm = s.sfm) :
    (failureScored r b).sfm = (healthEvent ((r.tail - 1) / 75) 16 .spliceFail s).sfm := healthEvent_sfm_of _ _ _ h

/-- With attempts left the record waits for its next re-read, its run being cut (03 R58, R61). -/
theorem failedAttempt_more (hr : s.splice z = some r) (h : 2 ≤ r.attemptsLeft) : failedAttempt z s =
    review (cutReread z ((flushStaging (failureScored r s)).setSplice z (some r.spent.retried))) := by
  unfold failedAttempt
  rw [hr]
  exact if_pos (show 0 < r.attemptsLeft - 1 by omega)

/-- With none left the fallback falls due (03 R58). -/
theorem failedAttempt_last (hr : s.splice z = some r) (h : r.attemptsLeft ≤ 1) : failedAttempt z s =
    fallback z r.spent ((failureScored r s).setSplice z (some r.spent)) := by
  unfold failedAttempt
  rw [hr]
  exact if_neg (show ¬ 0 < r.attemptsLeft - 1 by omega)

/-- What a failed attempt leaves where attempts are left (03 R58, R61). -/
theorem failedAttempt_retried (hr : s.splice z = some r) (h : 2 ≤ r.attemptsLeft) (hs : sent s) :
    retriedAs z r (failedAttempt z s)
      ∧ (∀ x, s.rsc.run = some x → x.purpose = .reread → x.owner = z →
        runOver x s (failedAttempt z s) ∧ halted x s (failedAttempt z s))
      ∧ (failedAttempt z s).sfm = (failureScored r s).sfm ∧ (∀ y, laneKept y s (failedAttempt z s))
      ∧ (failedAttempt z s).zone = s.zone ∧ (failedAttempt z s).cne = s.cne ∧ sameDisc s (failedAttempt z s) := by
  have eo := failureScored_only r s
  rw [failedAttempt_more hr h]
  generalize hw : (flushStaging (failureScored r s)).setSplice z (some r.spent.retried) = w
  have only : w = { failureScored r s with sst := w.sst, spl := w.spl } := by
    rw [← hw, flushStaging_only]
    rfl
  have lane : w.lane = s.lane := by
    rw [← hw, State.setSplice_lane]
    exact (dropHolds_lane _ _).trans eo.lane
  have rsc : w.rsc = s.rsc := by rw [only]; exact eo.rsc
  have requests : w.dlp.requests = s.dlp.requests := by rw [only]; exact eo.requests
  obtain ⟨work, once, cut⟩ := review_cutReread_spec (z := z) (sent_of_eq hs rsc (by rw [only]; exact eo.line) requests)
  generalize review (cutReread z w) = t at work once cut
  have kept := work.keepsPlay
  have record : w.splice z = some r.spent.retried := by rw [← hw, State.setSplice_splice_same]
  have flushed : w.spl.staging = [] ∧ w.spl.search = none := by rw [← hw]; exact ⟨rfl, rfl⟩
  refine ⟨⟨work.atWork.staging.trans flushed.1, work.atWork.search.trans flushed.2, ?_⟩, fun x hx hp ho => ?_, ?_,
    fun y => ?_, ?_, ?_, ?_, ?_⟩
  · obtain e | e := once z <;> rw [e, record]
    · exact ⟨_, rfl, rfl, rfl, rfl, rfl, rfl, .inl ⟨rfl, rfl⟩⟩
    · exact ⟨_, rfl, rfl, rfl, rfl, rfl, rfl, .inr ⟨rfl, rfl⟩⟩
  · obtain ⟨k1, k2⟩ := cut x (by rw [rsc]; exact hx) hp ho
    unfold runOver halted readRunWaits at *
    rw [rsc] at k1
    rw [requests] at k2
    exact ⟨k1, k2⟩
  · rw [kept.sfm, only]
  · have k := kept.lane y
    unfold laneKept at k ⊢
    rw [k, lane]
  · rw [kept.zone, only]
    exact eo.zone
  · rw [kept.cne, only]
    exact eo.cne
  · rw [kept.ttb, only]
    exact eo.ttb
  · rw [kept.mmn, only]
    exact eo.mmn

/-! ## Arming or read-over, whatever the boundary is -/

/-- Arming or read-over reaches the zone's lane and controller alone, and leaves the entries and the zone's state (06 R106,
R108). -/
theorem armOrReadOver_spec (z : Zone) (s : State) : zoneOnly z s (armOrReadOver z s)
    ∧ ((armOrReadOver z s).lane z).entries = (s.lane z).entries
    ∧ ((armOrReadOver z s).ctl z).state = (s.ctl z).state := by
  have changed : ∀ (c : ZoneCtl) (l : Lane), c.state = (s.ctl z).state → l.entries = (s.lane z).entries →
      zoneOnly z s ((s.setCtl z c).setLane z l) ∧ (((s.setCtl z c).setLane z l).lane z).entries = (s.lane z).entries
        ∧ (((s.setCtl z c).setLane z l).ctl z).state = (s.ctl z).state := by
    intro c l hc hl
    refine ⟨⟨rfl, ?_, ?_, rfl⟩, ?_, ?_⟩
    · rw [State.setLane_lane_other]
      rfl
    · rw [State.setLane_ctl, State.setCtl_ctl_other]
    · rw [State.setLane_lane_same]
      exact hl
    · rw [State.setLane_ctl, State.setCtl_ctl_same]
      exact hc
  have same : zoneOnly z s s ∧ (s.lane z).entries = (s.lane z).entries ∧ (s.ctl z).state = (s.ctl z).state :=
    ⟨⟨rfl, rfl, rfl, rfl⟩, rfl, rfl⟩
  unfold armOrReadOver
  split
  · unfold armNext
    dsimp only
    split
    · exact same
    · split
      · exact same
      · split
        · exact same
        · exact changed _ _ rfl rfl
  · split
    · rename_i n _ _
      obtain ⟨p, used⟩ : ∃ p, consumeOrigin z n.origin s = s.setCtl z { s.ctl z with program := p } := by
        obtain e | ⟨p, -, e⟩ := consumeOrigin_eq z n.origin s
        · refine ⟨(s.ctl z).program, e.trans ?_⟩
          cases z <;> rfl
        · exact ⟨p, e⟩
      unfold readOver
      dsimp only
      rw [used]
      split
      · rw [setCtl_setCtl, State.setCtl_ctl_same]
        exact changed _ _ rfl rfl
      · rw [setCtl_setCtl, State.setCtl_ctl_same]
        exact changed _ _ rfl rfl
    · exact same

/-- Nothing is armed or read over where the lane's tail stands at neither end, or no track is chosen (06 R106, R108). -/
theorem armOrReadOver_stays
    (next : ∀ n, (s.ctl z).next = some n → (s.lane z).tail ≠ some n.stop)
    (arm : ∀ c, (s.ctl z).next = none → (s.ctl z).active = some c →
      (s.lane z).tail ≠ some c.stop ∨ chosenNext z c.track c.stop s = none) : armOrReadOver z s = s := by
  unfold armOrReadOver
  split
  · rename_i hn
    unfold armNext
    dsimp only
    split
    · rfl
    · rename_i c hc
      split
      · rfl
      · rename_i k
        rw [(arm c hn hc).resolve_left fun m => k (.inr (.inr m))]
  · rename_i n hn
    exact if_neg fun k => next n hn k.2

/-! ## A splice that has ended -/

theorem endSplice_sfm (z : Zone) (out : SpliceOutcome) (ja jo : Option Nat) (i : Option Int) (s : State) :
    (endSplice z out ja jo i s).sfm = s.sfm := (keepsPlay_endSplice z out ja jo i s).sfm

theorem zoneTests_sfm (z : Zone) (s : State) : (zoneTests z s).sfm = s.sfm := by
  obtain ⟨h, -⟩ | ⟨-, -, -, -, -, -, h⟩ := zoneTests_turn z s
  · exact h.sfm
  · exact h

theorem armOrReadOver_sfm (z : Zone) (s : State) : (armOrReadOver z s).sfm = s.sfm := by
  rw [(armOrReadOver_spec z s).1.rest]

theorem dealRun_ends (whole : Bool) (tail : Nat) (h : s.splice z = none) :
    (dealRun z whole tail s).splice z = none ∧ (dealRun z whole tail s).sfm = s.sfm := by
  unfold dealRun
  split
  · exact ⟨h, rfl⟩
  · split
    · split
      · exact ⟨h, rfl⟩
      · exact ⟨(issuedOnce_cutRun s).none h, (atWork_cutRun s).sfm⟩
    · exact ⟨h, rfl⟩

theorem dealt_ends (whole : Bool) (tail : Nat) (h : s.splice z = none) :
    (dealt z whole tail s).splice z = none ∧ (dealt z whole tail s).sfm = s.sfm := by
  obtain ⟨h1, h2⟩ := dealRun_ends whole tail h
  have reviewed := (issuedOnce_review _).none h1
  have work := atWork_trans (atWork_review (dealRun z whole tail s)) (atWork_preemptTest _)
  refine ⟨?_, work.sfm.trans h2⟩
  unfold dealt preemptTest
  split
  · exact (issuedOnce_cutRun _).none reviewed
  · exact reviewed

/-- Whatever sectors a join or UNVERIFIED fallback moves, the splice is over (03 R62). -/
theorem joinStaged_ends {k a o : Nat} {slots : List Nat} {seam : Seam} {report : Nat → State → State}
    (h : ∀ c t, ∃ out ja jo i, report c t = endSplice z out ja jo i t) :
    (joinStaged z k slots a o seam report s).splice z = none ∧ (joinStaged z k slots a o seam report s).sfm = s.sfm := by
  have store : (joinedStore z k slots a o seam s).sfm = s.sfm := by rw [joinedStore_only]
  rw [joinStaged_eq]
  generalize joinedStore z k slots a o seam s = j at store
  generalize (moveStaged z slots a o seam s).1 = m
  obtain ⟨out, ja, jo, i, e⟩ := h m (if m = 0 then j else armOrReadOver z j)
  obtain ⟨h1, h2⟩ := dealt_ends (z := z) (m != 0 && m == (s.spl.staging.drop k).length) (a + m)
    (zoneTests_splice (endSplice_splice z out ja jo i (if m = 0 then j else armOrReadOver z j)))
  rw [e]
  refine ⟨h1, h2.trans ?_⟩
  rw [zoneTests_sfm, endSplice_sfm]
  split
  · exact store
  · rw [armOrReadOver_sfm, store]

theorem gapFallback_ends (z : Zone) (r : SpliceRec) (s : State) :
    (gapFallback z r s).splice z = none ∧ (gapFallback z r s).sfm = s.sfm := by
  have flushed : (flushStaging s).sfm = s.sfm := by rw [flushStaging_only]
  unfold gapFallback
  dsimp only
  refine ⟨(issuedOnce_review _).none ((quiet_cutReread z _ z).1 (zoneTests_splice (endSplice_splice z _ _ _ _ _))), ?_⟩
  rw [(atWork_review _).sfm, (atWork_cutReread z _).sfm, zoneTests_sfm, endSplice_sfm, armOrReadOver_sfm]
  exact flushed

/-- A fallback ends the splice (03 R59, R60). -/
theorem fallback_ends (z : Zone) (r : SpliceRec) (s : State) :
    (fallback z r s).splice z = none ∧ (fallback z r s).sfm = s.sfm := by
  unfold fallback
  split
  · unfold unverifiedJoin
    exact joinStaged_ends fun _ _ => ⟨_, _, _, _, rfl⟩
  · exact gapFallback_ends z r s

theorem failedAttempt_ended (hr : s.splice z = some r) (h : r.attemptsLeft ≤ 1) :
    (failedAttempt z s).splice z = none ∧ (failedAttempt z s).sfm = (failureScored r s).sfm := by
  rw [failedAttempt_last hr h]
  exact fallback_ends z r.spent _

/-! ## The UNVERIFIED fallback -/

/-- The read address of the staged sector at a staging index. -/
def stagedAddress (s : State) (i : Nat) : Option Nat := (s.spl.staging[i]?).bind fun n => (s.slot n).record.readAddress

theorem stagedAddresses_getElem? (s : State) (i : Nat) (a : Nat) :
    (stagedAddresses s)[i]? = some (some a) ↔ stagedAddress s i = some a := by
  unfold stagedAddresses stagedAddress
  rw [List.getElem?_map]
  cases s.spl.staging[i]? <;> simp

/-- The first staged sector that shows read address T (03 R59). -/
theorem indexOfTail_eq {k a : Nat} (h : stagedAddress s k = some a) (first : ∀ i, i < k → stagedAddress s i ≠ some a) :
    indexOfTail a s = k := by
  obtain ⟨hk, shown⟩ := List.getElem?_eq_some_iff.mp ((stagedAddresses_getElem? s k a).mpr h)
  refine (List.findIdx_eq hk).mpr ⟨by rw [shown]; exact beq_self_eq_true _, fun i hi => ?_⟩
  refine beq_eq_false_iff_ne.mpr fun e => first i hi ((stagedAddresses_getElem? s i a).mp ?_)
  rw [List.getElem?_eq_getElem (by omega), e]

theorem tail_staged {a : Nat} : some a ∈ stagedAddresses s ↔ ∃ k, stagedAddress s k = some a := by
  rw [List.mem_iff_getElem?]
  exact exists_congr fun k => stagedAddresses_getElem? s k a

/-- The slots that follow on in step come first, each at its address, and the next is not at its (03 R59). -/
theorem readInStep_spec (s : State) (ns : List Nat) (a : Nat) :
    readInStep s ns a = ns.take (readInStep s ns a).length
      ∧ (∀ j, j < (readInStep s ns a).length → ((ns[j]?).bind fun n => (s.slot n).record.readAddress) = some (a + j))
      ∧ ((ns[(readInStep s ns a).length]?).bind fun n => (s.slot n).record.readAddress)
        ≠ some (a + (readInStep s ns a).length) := by
  induction ns generalizing a with
  | nil => exact ⟨rfl, fun j hj => absurd hj (Nat.not_lt_zero j), fun k => by cases k⟩
  | cons n ns ih =>
    obtain ⟨h1, h2, h3⟩ := ih (a + 1)
    unfold readInStep
    split
    · rename_i k
      refine ⟨congrArg (n :: ·) h1, fun j hj => ?_, ?_⟩
      · cases j with
        | zero => exact k
        | succ j =>
          rw [List.getElem?_cons_succ, h2 j (Nat.lt_of_succ_lt_succ hj), Nat.add_right_comm]
          rfl
      · rw [List.length_cons, List.getElem?_cons_succ, ← Nat.add_assoc, Nat.add_right_comm]
        exact h3
    · rename_i k
      exact ⟨rfl, fun j hj => absurd hj (Nat.not_lt_zero j), k⟩

/-- The moved entries by their places in staging. -/
theorem movedEntries_staged {staging rest : List Nat} {k n m : Nat} (h : staging.drop k = n :: rest) (hm : m ≤ rest.length)
    (track a o : Nat) (seam : Seam) : movedEntries track (n :: rest.take m) a o seam = ⟨n, a, track, o, seam⟩ ::
      (List.range m).map fun j => (⟨staging.getD (k + 1 + j) 0, a + 1 + j, track, 0, .none⟩ : Entry) := by
  have behind : staging.drop (k + 1) = rest := by
    rw [← List.drop_drop, h]
    rfl
  rw [movedEntries_cons, List.length_take, Nat.min_eq_left hm]
  congr 1
  refine List.map_congr_left fun j hj => ?_
  rw [List.mem_range] at hj
  rw [List.getD_eq_getElem?_getD, List.getElem?_take_of_lt hj, ← behind, List.getElem?_drop, ← List.getD_eq_getElem?_getD]

/-- The state in which a splice attempt resolves, reached within a command from `y` with the scheduler's fields and the requests
as there. -/
structure sameRun (y b : State) : Prop where
  rsc      : b.rsc = y.rsc
  line     : b.dlp.line = y.dlp.line
  requests : b.dlp.requests = y.dlp.requests

theorem sameRun.sent {y : State} (h : sameRun y b) (k : sent y) : Safety.sent b := sent_of_eq k h.rsc h.line h.requests

/-- All that `unverifiedJoined` says of the UNVERIFIED fallback, where the first sector that shows T can be moved (03 R59,
R61). -/
theorem unverifiedJoin_joined {y : State} {k n : Nat} (g : sameGround s b) (hstaging : b.spl.staging = s.spl.staging)
    (hslot : b.slot = s.slot) (hr : b.splice z = some r) (run : sameRun y b) (hs : sent y)
    (hn : s.spl.staging[k]? = some n) (ha : stagedAddress s k = some r.tail)
    (first : ∀ i, i < k → stagedAddress s i ≠ some r.tail) (hm : movable z 0 r.tail s) :
    unverifiedJoined z r s.spl.staging (stagedAddress s) k n False s y (unverifiedJoin z r b)
      ∧ (unverifiedJoin z r b).sfm = b.sfm ∧ zoneKept z.other s (unverifiedJoin z r b)
      ∧ sameDisc s (unverifiedJoin z r b) := by
  have addresses : stagedAddress b = stagedAddress s := by
    unfold stagedAddress
    rw [hstaging, hslot]
  obtain ⟨hk, hget⟩ := List.getElem?_eq_some_iff.mp hn
  have parts : s.spl.staging.drop k = n :: s.spl.staging.drop (k + 1) := by
    rw [List.drop_eq_getElem_cons hk, hget]
  generalize hrest : s.spl.staging.drop (k + 1) = rest at parts
  have restAddress : ∀ j, ((rest[j]?).bind fun n => (b.slot n).record.readAddress) = stagedAddress s (k + 1 + j) := by
    intro j
    rw [← hrest, List.getElem?_drop, hslot]
    rfl
  have restLength : rest.length = s.spl.staging.length - (k + 1) := by rw [← hrest, List.length_drop]
  have shown : (b.slot n).record.readAddress = some r.tail := by
    unfold stagedAddress at ha
    rw [hn] at ha
    rw [hslot]
    exact ha
  obtain ⟨first_, inStep, stops⟩ := readInStep_spec b rest (r.tail + 1)
  simp only [restAddress] at inStep stops
  have le : (readInStep b rest (r.tail + 1)).length ≤ rest.length := (readInStep_prefix b rest _).length_le
  obtain ⟨m, v, hle, can, stop, dealtWith, rejoined, awaits⟩ := joinStaged_moves (out := .unverified) (ja := some r.tail)
    (jo := none) (i := none) (k := k) (n := n) (ns := readInStep b rest (r.tail + 1)) (o := 0) (seam := .unverified)
    (report := fun _ => endSplice z .unverified (some r.tail) none none) g hr hm (fun _ _ _ => rfl)
  have eq : unverifiedJoin z r b
      = dealt z (m + 1 == (b.spl.staging.drop k).length) (r.tail + m + 1) v := by
    rw [← dealtWith]
    unfold unverifiedJoin
    dsimp only
    rw [indexOfTail_eq (by rw [addresses]; exact ha) (by rw [addresses]; exact first), hstaging, parts, readInStep, if_pos shown]
  obtain ⟨work, once⟩ := dealt_scheduling (z := z) (whole := m + 1 == (b.spl.staging.drop k).length) (tail := r.tail + m + 1)
    (sent_of_awaits awaits (run.sent hs))
  have done := rejoined.scheduled work once
  rw [eq]
  refine ⟨⟨m, by omega, fun j hj => ⟨?_, can j hj⟩, ?_, ?_, done.splice, done.staging, done.search, done.tail,
    fun x hx hp ho => ?_⟩, done.sfm, done.other, done.disc⟩
  · cases j with
    | zero => exact ha
    | succ j =>
      have step := inStep j (by omega)
      rw [show k + (j + 1) = k + 1 + j by omega, step]
      congr 1
      omega
  · refine stop.imp (fun e => ?_) fun k => ?_
    · rw [e]
      exact stops
    · rw [Nat.add_comm 1 m]
      exact k
  · have taken : (readInStep b rest (r.tail + 1)).take m = rest.take m := by
      rw [first_, List.take_take, Nat.min_eq_left hle]
    rw [done.entries, taken, movedEntries_staged parts (by omega)]
  · refine joinedRun_dealt awaits (run.sent hs) (by rw [run.rsc]; exact hx) hp ho ?_ rejoined.other.1 (by rw [run.rsc])
      run.requests (by rw [run.rsc])
    rw [beq_iff_eq, hstaging, List.length_drop]
    omega

/-! ## The GAP fallback -/

/-- The lane that a GAP fallback steps on: bounded by the end of the appending track (03 R60). -/
theorem stepOver_lane {a e : Nat} (h : appendingEnd z s = some e) :
    (stepOver z a s).lane z = { s.lane z with tail := some (min a e), pendingSeam := .gap } := by
  unfold stepOver
  rw [h, State.setLane_lane_same]

theorem stepOver_entries (z : Zone) (a : Nat) (s : State) : ((stepOver z a s).lane z).entries = (s.lane z).entries := by
  unfold stepOver
  rw [State.setLane_lane_same]

/-- Behind the gap nothing is armed where the tail stands short of the end, and nothing where no track is chosen (03 R60; 06
R106). -/
theorem stepOver_unarmed {a e : Nat} (hread : (s.ctl z).readOverEnd = none) (h : appendingEnd z s = some e)
    (k : a < e ∨ ((s.ctl z).next = none ∧ ∀ c, (s.ctl z).active = some c → chosenNext z c.track c.stop s = none)) :
    armOrReadOver z (stepOver z a s) = stepOver z a s := by
  have ctl : (stepOver z a s).ctl = s.ctl := rfl
  refine armOrReadOver_stays (fun n hn m => ?_) fun c hn hc => ?_
  · rw [ctl] at hn
    have hlt := k.resolve_right fun k => by rw [k.1] at hn; cases hn
    unfold appendingEnd at h
    rw [hn] at h
    cases h
    rw [stepOver_lane (e := n.stop) (by unfold appendingEnd; rw [hn]), Option.some_inj, Nat.min_eq_left hlt.le] at m
    omega
  · rw [ctl] at hn hc
    refine k.imp (fun hlt m => ?_) fun k => k.2 c hc
    rw [stepOver_lane h, Option.some_inj, Nat.min_eq_left hlt.le] at m
    unfold appendingEnd at h
    rw [hn, hread, hc] at h
    have stop : c.stop = e := Option.some.inj h
    omega

theorem zoneOnly_stepOver (z : Zone) (a : Nat) (s : State) : zoneOnly z s (stepOver z a s) :=
  ⟨rfl, State.setLane_lane_other s z _, rfl, rfl⟩

/-- Where the tail of a lane stands behind the gap, in a state whose lanes and zones are as in `s` (03 R60). -/
theorem stepOver_steps {a e : Nat} (g : sameGround s b) (hread : (s.ctl z).readOverEnd = none)
    (he : appendingEnd z s = some e)
    (k : a < e ∨ ((s.ctl z).next = none ∧ ∀ c, (s.ctl z).active = some c → chosenNext z c.track c.stop s = none)) :
    ((armOrReadOver z (stepOver z a b)).lane z).tail = some (min a e)
      ∧ ((armOrReadOver z (stepOver z a b)).lane z).pendingSeam = .gap := by
  have ended : appendingEnd z b = some e := by
    rw [← he]
    unfold appendingEnd
    rw [g.ctl]
  have chosen : ∀ ref stop, chosenNext z ref stop b = chosenNext z ref stop s := by
    intro ref stop
    unfold chosenNext chooseNext nextCtx
    rw [g.ctl, g.ttb]
  simp only [← chosen] at k
  rw [← g.ctl] at hread k
  rw [stepOver_unarmed hread ended k, stepOver_lane ended]
  exact ⟨rfl, rfl⟩

/-- The address that a GAP fallback steps to: T and the gap advance of its granule's row (03 R60). -/
def gapReach (r : SpliceRec) (s : State) : Nat :=
  r.tail + (rowOfGranule (flushStaging s) (spliceGranule r.tail)).gap

/-- The state in which a GAP fallback has stepped the lane on and ended the splice (03 R60). -/
def gapEnded (z : Zone) (r : SpliceRec) (s : State) : State :=
  let t := stepOver z (gapReach r s) (flushStaging s)
  endSplice z .gap (t.lane z).tail none none (armOrReadOver z t)

theorem gapFallback_eq (z : Zone) (r : SpliceRec) (s : State) :
    gapFallback z r s = review (cutReread z (zoneTests z (gapEnded z r s))) := rfl

/-- The row the fallback has used is as it leaves it. -/
theorem gapReach_eq (z : Zone) (r : SpliceRec) (s : State) :
    gapReach r s = r.tail + (rowOfGranule (gapFallback z r s) ((r.tail - 1) / 75)).gap := by
  unfold gapReach rowOfGranule
  rw [(gapFallback_ends z r s).2, flushStaging_only]
  rfl

theorem zoneOnly_setSplice (h : zoneOnly z s t) (o : Option SpliceRec) :
    zoneOnly z (s.setSplice z o) (t.setSplice z o) := by
  refine ⟨?_, h.lane, h.ctl, h.conc⟩
  conv_lhs => rw [h.rest]
  rfl

/-- What the gap and the splice's end leave: the lane and the zone as arming or read-over leaves them. -/
theorem gapEnded_only (hr : s.splice z = some r) :
    zoneOnly z ((flushStaging s).setSplice z none) (gapEnded z r s)
      ∧ (gapEnded z r s).lane = (armOrReadOver z (stepOver z (gapReach r s) (flushStaging s))).lane
      ∧ ((gapEnded z r s).lane z).entries = (s.lane z).entries
      ∧ ((gapEnded z r s).ctl z).state = (s.ctl z).state := by
  obtain ⟨armed, entries, state⟩ := armOrReadOver_spec z (stepOver z (gapReach r s) (flushStaging s))
  have only := zoneOnly_trans (zoneOnly_stepOver z _ _) armed
  have splice : (armOrReadOver z (stepOver z (gapReach r s) (flushStaging s))).splice z = some r := by
    rw [only.rest]
    exact (congrFun (flushStaging_splice s) z).trans hr
  have posted : onlyReports ((armOrReadOver z (stepOver z (gapReach r s) (flushStaging s))).setSplice z none)
      (gapEnded z r s) := by
    unfold gapEnded
    dsimp only
    rw [endSplice_some splice]
    exact onlyReports_post _ _
  have lane : (flushStaging s).lane = s.lane := dropHolds_lane _ _
  have ctl : (flushStaging s).ctl = s.ctl := by rw [flushStaging_only]; rfl
  refine ⟨zoneOnly_trans (zoneOnly_setSplice only none) (zoneOnly_of_onlyReports z posted), posted.lane, ?_, ?_⟩
  · rw [stepOver_entries, lane] at entries
    rw [posted.lane]
    exact entries
  · rw [posted.ctl, ← ctl]
    exact state

/-- What the GAP fallback of a PLAYING zone leaves (03 R60, R61). -/
theorem gapFallback_stepped {y : State} (g : sameGround s b) (run : sameRun y b) (hs : sent y)
    (hr : b.splice z = some r) (hplay : (s.ctl z).state = .playing) :
    gapStepped z r s (gapFallback z r b)
      ∧ (∀ x, y.rsc.run = some x → x.purpose = .reread → x.owner = z →
        runOver x y (gapFallback z r b) ∧ halted x y (gapFallback z r b))
      ∧ ((gapFallback z r b).lane z).entries = (s.lane z).entries
      ∧ zoneKept z.other s (gapFallback z r b) ∧ sameDisc s (gapFallback z r b) := by
  have fonly := flushStaging_only b
  have flane : (flushStaging b).lane = b.lane := dropHolds_lane _ _
  have fground : sameGround s (flushStaging b) :=
    ⟨flane.trans g.lane, by rw [fonly]; exact g.ctl, by rw [fonly]; exact g.conc, by rw [fonly]; exact g.ttb,
      by rw [fonly]; exact g.mmn⟩
  obtain ⟨only, wlane, entries, state⟩ := gapEnded_only hr
  have untested : zoneTests z (gapEnded z r b) = gapEnded z r b := by
    unfold zoneTests
    rw [state, g.ctl, hplay]
    exact if_neg fun k => k.elim ZoneState.noConfusion ZoneState.noConfusion
  have ended := gapFallback_eq z r b
  have reach := gapReach_eq z r b
  rw [untested] at ended
  generalize gapEnded z r b = w at *
  have wrun : sameRun y w :=
    ⟨by rw [only.rest, fonly]; exact run.rsc, by rw [only.rest, fonly]; exact run.line,
      by rw [only.rest, fonly]; exact run.requests⟩
  obtain ⟨work, once, cut⟩ := review_cutReread_spec (z := z) (wrun.sent hs)
  rw [← ended] at work once cut
  generalize gapFallback z r b = t at *
  have kept := work.keepsPlay
  have tlane : ∀ x, t.lane x = { w.lane x with runCount := (t.lane x).runCount } := kept.lane
  obtain ⟨tctl, tconc, -⟩ := kept.zoneKept z.other
  have wsplice : w.splice z = none := by
    rw [show w.splice = ((flushStaging b).setSplice z none).splice by rw [only.rest]; rfl, State.setSplice_splice_same]
  have wspl : w.spl.staging = [] ∧ w.spl.search = none := by
    rw [only.rest, fonly]
    exact ⟨rfl, rfl⟩
  refine ⟨⟨work.atWork.staging.trans wspl.1, work.atWork.search.trans wspl.2, once.none wsplice, fun hread e he => ?_⟩,
    fun x hx hp ho => ?_, ?_, ⟨?_, ?_, ?_⟩, ?_, ?_⟩
  · have steps := fun k => stepOver_steps (a := gapReach r b) fground hread he k
    dsimp only
    rw [tlane z, wlane, ← reach]
    refine ⟨fun hlt => ?_, fun hle hn _ hno => ?_⟩
    · rw [Nat.min_eq_left hlt.le] at steps
      exact steps (.inl hlt)
    · rw [Nat.min_eq_right hle] at steps
      exact steps (.inr ⟨hn, hno⟩)
  · obtain ⟨k1, k2⟩ := cut x (by rw [wrun.rsc]; exact hx) hp ho
    unfold runOver halted readRunWaits at *
    rw [wrun.rsc] at k1
    rw [wrun.requests] at k2
    exact ⟨k1, k2⟩
  · rw [tlane z, ← g.lane]
    exact entries
  · exact tctl.trans (only.ctl.trans (congrFun fground.ctl _))
  · exact tconc.trans (only.conc.trans (congrFun fground.conc _))
  · unfold laneKept
    rw [tlane z.other, only.lane]
    show { (flushStaging b).lane z.other with runCount := (t.lane z.other).runCount } = _
    rw [fground.lane]
  · rw [kept.ttb, only.rest]
    exact fground.ttb
  · rw [kept.mmn, only.rest]
    exact fground.mmn

end Sys2Proof.Safety
end

-- ==== The end of a search ====
section
/-! SUPPORT. SEARCH_DONE, and the sector that a join has waited for (03 R56 to R61). -/

namespace Sys2Proof.Safety

open Sys2Proof.Machine

variable {s t v b : State} {z : Zone} {r : SpliceRec} {x : Run} {q : Search} {p : Nat}

/-! ## SEARCH_DONE -/

/-- The search in flight resolves (03 R56). -/
theorem exec_searchDone (hq : s.spl.search = some q) (hf : q.found = none) (hr : s.splice q.zone = some r)
    (hst : r.state = .searching) :
    exec .searchDone s = .next (endEvent (searchResolves q.zone r q (beginEvent s))) := by
  have resolves : searchEnds (beginEvent s) = searchResolves q.zone r q (beginEvent s) := by
    unfold searchEnds
    rw [beginEvent_spl, beginEvent_splice, hq]
    dsimp only
    rw [hr]
    exact if_pos ⟨by rw [hf]; rfl, hst⟩
  rw [← resolves]
  rfl

theorem searchOutcome_beginEvent (q : Search) (o : Nat) (s : State) : searchOutcome q o (beginEvent s) = searchOutcome q o s := by
  unfold searchOutcome searchStream
  rw [beginEvent_spl, beginEvent_slot]

theorem sameGround_beginEvent (s : State) : sameGround s (beginEvent s) :=
  ⟨beginEvent_lane s, beginEvent_ctl s, beginEvent_conc s, beginEvent_ttb s, beginEvent_mmn s⟩

theorem sent_beginEvent (s : State) : sent (beginEvent s) := fun r _ => beginEvent_sent r.id s

theorem searchResolves_failed (h : searchOutcome q (effectiveOverlap r) s = none) :
    searchResolves z r q s = failedAttempt z s := by
  unfold searchResolves
  rw [h]

/-- An accepted search joins what is staged, waits for a sector of its own run, or has failed (03 R57). -/
theorem searchResolves_accepted (h : searchOutcome q (effectiveOverlap r) s = some p) : searchResolves z r q s =
    if continuationStaged q p s then verifiedJoin z r p q.window.length s
    else if ownsReread z s then { s with spl := { s.spl with search := some { q with found := some p } } }
    else failedAttempt z s := by
  unfold searchResolves
  rw [h]

/-! ## The failed search -/

/-- The state in which the fallback of a failed search is taken: scored, and the attempt spent (03 R58). -/
theorem sameGround_failureScored (r : SpliceRec) (o : Option SpliceRec) (g : sameGround s b) :
    sameGround s ((failureScored r b).setSplice z o) := by
  have eo := failureScored_only r b
  exact ⟨eo.lane.trans g.lane, eo.ctl.trans g.ctl, eo.conc.trans g.conc, eo.ttb.trans g.ttb, eo.mmn.trans g.mmn⟩

theorem sameRun_failureScored (r : SpliceRec) (o : Option SpliceRec) (b : State) :
    sameRun b ((failureScored r b).setSplice z o) := by
  have eo := failureScored_only r b
  exact ⟨eo.rsc, eo.line, eo.requests⟩

/-- Settles O23: `failedAttempt_retried` where attempts are left, and otherwise the fallback, `unverifiedJoin_joined` where a
staged sector shows T and `gapFallback_stepped` where none does. -/
theorem failedSearchIsRetried : Obligations.FailedSearchIsRetried := by
  unfold Obligations.FailedSearchIsRetried
  intro q r s hq hf hr hst hout scored address cut
  have taken : exec .searchDone s = .next (endEvent (failedAttempt q.zone (beginEvent s))) := by
    rw [exec_searchDone hq hf hr hst, searchResolves_failed (by rw [searchOutcome_beginEvent]; exact hout)]
  have record : (beginEvent s).splice q.zone = some r := by rw [beginEvent_splice]; exact hr
  have sfm := failureScored_sfm (r := r) (beginEvent_sfm s)
  have ground := sameGround_failureScored (z := q.zone) r (some r.spent) (sameGround_beginEvent s)
  have run := sameRun_failureScored (z := q.zone) r (some r.spent) (beginEvent s)
  have spent : ((failureScored r (beginEvent s)).setSplice q.zone (some r.spent)).splice q.zone = some r.spent :=
    State.setSplice_splice_same _ _ _
  have eo := failureScored_only r (beginEvent s)
  have staging : ((failureScored r (beginEvent s)).setSplice q.zone (some r.spent)).spl.staging = s.spl.staging := by
    rw [State.setSplice_staging, eo.spl]
    exact congrArg Spl.staging (beginEvent_spl s)
  have slot : ((failureScored r (beginEvent s)).setSplice q.zone (some r.spent)).slot = s.slot :=
    eo.slot.trans (beginEvent_slot s)
  refine ⟨fun more => ⟨_, taken, ?_⟩, fun k n last hn ha first hm => ⟨_, taken, ?_⟩,
    fun last unaddressed playing => ⟨_, taken, ?_⟩⟩
  · obtain ⟨h1, h2, h3, h4, h5, h6, h7, h8⟩ := failedAttempt_retried record more (sent_beginEvent s)
    refine ⟨h1, fun x hx => h2 x (by rw [beginEvent_rsc]; exact hx), h3.trans sfm, fun z => ?_, h5.trans (beginEvent_zone s),
      h6.trans (beginEvent_cne s), h7.trans (beginEvent_ttb s), h8.trans (beginEvent_mmn s)⟩
    have kept := h4 z
    unfold laneKept at kept ⊢
    rw [kept, beginEvent_lane]
  · rw [failedAttempt_last record last]
    have shown : some r.spent.tail ∈ stagedAddresses ((failureScored r (beginEvent s)).setSplice q.zone (some r.spent)) := by
      refine tail_staged.mpr ⟨k, ?_⟩
      unfold stagedAddress
      rw [staging, slot]
      exact ha
    unfold fallback
    rw [if_pos shown]
    obtain ⟨h1, h2, h3⟩ := unverifiedJoin_joined ground staging slot spent run (sent_beginEvent s) hn ha first hm
    exact ⟨h1, h2.trans sfm, h3⟩
  · rw [failedAttempt_last record last]
    have unshown : some r.spent.tail ∉ stagedAddresses ((failureScored r (beginEvent s)).setSplice q.zone (some r.spent)) := by
      refine fun k => ?_
      obtain ⟨i, hi⟩ := tail_staged.mp k
      unfold stagedAddress at hi
      rw [staging, slot] at hi
      exact unaddressed i hi
    have ended := (gapFallback_ends q.zone r.spent ((failureScored r (beginEvent s)).setSplice q.zone (some r.spent))).2
    unfold fallback
    rw [if_neg unshown]
    obtain ⟨h1, h2, h3, h4⟩ := gapFallback_stepped ground run (sent_beginEvent s) spent playing
    exact ⟨h1, fun x hx => h2 x (by rw [beginEvent_rsc]; exact hx), h3, ended.trans sfm, h4⟩

/-! ## The accepted search -/

/-- A VERIFIED join whose first sector is staged and can be moved (03 R57). -/
theorem verifiedJoin_moves {w n : Nat} {rest : List Nat} (g : sameGround s b) (hr : b.splice z = some r)
    (hd : b.spl.staging.drop ((p + w) / 588) = n :: rest)
    (h : movable z 0 (r.tail - min r.overlap r.tail + (p + w) / 588) s) :
    let k := (p + w) / 588
    let a := r.tail - min r.overlap r.tail + k
    ∃ m v, m ≤ rest.length ∧ (∀ j, j ≤ m → movable z j (a + j) s)
      ∧ (m = rest.length ∨ ¬ movable z (m + 1) (a + 1 + m) s)
      ∧ verifiedJoin z r p w b = dealt z (m + 1 == (b.spl.staging.drop k).length) (a + m + 1) v
      ∧ Rejoined z m a ((p + w) % 588) .verified (n :: rest.take m)
          (.splice ⟨z, r.cause, .verified, r.tail, r.cover, r.attemptsMade, some a, some ((p + w) % 588),
            some ((p : Int) - ((min r.overlap r.tail : Nat) * 588 - w))⟩) s b v
      ∧ RunAwaits z (a + m) s b v := by
  intro k a
  unfold verifiedJoin
  dsimp only
  have moves := joinStaged_moves (out := .verified) (ja := some a) (jo := some ((p + w) % 588))
    (i := some ((p : Int) - expectedPosition (effectiveOverlap r) w)) (k := k) (n := n) (ns := rest) (o := (p + w) % 588)
    (seam := .verified) (report := fun moved => endSplice z .verified (if moved = 0 then none else some a)
      (if moved = 0 then none else some ((p + w) % 588)) (some ((p : Int) - expectedPosition (effectiveOverlap r) w)))
    g hr h (fun c t hc => by rw [if_neg hc, if_neg hc])
  rw [← hd] at moves
  exact moves

/-! ## The sector that a join has waited for -/

/-- The run record once a REREAD sector past its settle has counted (02 R20, R25). -/
def rereadCounted (f : SectorFrame) (x : Run) : Run :=
  { x with received := x.received + 1, addressRead := x.addressRead || f.readAddress.isSome }

/-- The state once a REREAD sector has been scored and staged in the slot at the head of the free list, the run being `y` (02 R24,
R25, R34, R36; 03 R50). -/
def sectorStaged (f : SectorFrame) (y : Run) (n : Nat) (rest : List Nat) (s : State) : State :=
  let u := filled n rest (recordOf f) ((rearm (sectorEvent f (framed s))).setRun (some y))
  clearFailures (holdSlot n { u with spl := { u.spl with staging := u.spl.staging ++ [n] } })

/-- A REREAD sector past its settle is staged, and the Splice Unit answers it (02 R25; 03 R50). -/
theorem takeSector_staged {f : SectorFrame} {n : Nat} {rest : List Nat} (hr : s.rsc.run = some x)
    (hid : f.runId.toNat = x.id) (hl : x.settleLeft = 0) (hp : x.purpose = .reread) (hlen : s.spl.staging.length < 12)
    (hfree : s.sst.free = n :: rest) :
    takeSector f (framed s) = afterStaged (stagedArrived x.owner (sectorStaged f (rereadCounted f x) n rest s)) := by
  have fo := framed_only s
  have eo := sectorEvent_only f (framed s)
  have staging : (sectorEvent f (framed s)).spl.staging = s.spl.staging := by rw [eo.spl]; exact congrArg Spl.staging fo.spl
  have free : (sectorEvent f (framed s)).sst.free = n :: rest := by rw [eo.sst]; exact (congrArg Sst.free fo.sst).trans hfree
  have staged : ∀ y, stageSector x.owner f ((rearm (sectorEvent f (framed s))).setRun (some y))
      = stagedArrived x.owner (sectorStaged f y n rest s) := by
    intro y
    unfold stageSector
    rw [if_neg (show ¬ 12 ≤ ((rearm (sectorEvent f (framed s))).setRun (some y)).spl.staging.length from
        show ¬ 12 ≤ (sectorEvent f (framed s)).spl.staging.length by rw [staging]; omega),
      takeSlot_cons (s := (rearm (sectorEvent f (framed s))).setRun (some y)) (recordOf f) free]
    rfl
  unfold takeSector
  rw [(congrArg Rsc.run fo.rsc).trans hr]
  dsimp only
  rw [if_neg (not_not.mpr hid), if_neg (by omega), if_pos hp]
  unfold rereadSector
  dsimp only
  rw [staged]
  rfl

section
variable (f : SectorFrame) (y : Run) (n : Nat) (rest : List Nat) (s : State)

theorem sectorStaged_rsc : (sectorStaged f y n rest s).rsc =
    { s.rsc with run := some y, stall := some s.rsc.nextLimit, failures := 0 } := by
  have e : (sectorEvent f (framed s)).rsc = s.rsc := (sectorEvent_only f (framed s)).rsc.trans (framed_only s).rsc
  show { (sectorEvent f (framed s)).rsc with
    run := some y, stall := some (sectorEvent f (framed s)).rsc.nextLimit, failures := 0 } = _
  rw [e]

theorem sectorStaged_spl : (sectorStaged f y n rest s).spl = { s.spl with staging := s.spl.staging ++ [n] } := by
  have e : (sectorEvent f (framed s)).spl = s.spl := (sectorEvent_only f (framed s)).spl.trans (framed_only s).spl
  show ({ (sectorEvent f (framed s)).spl with staging := (sectorEvent f (framed s)).spl.staging ++ [n] } : Spl) = _
  rw [e]

theorem sectorStaged_dlp : (sectorStaged f y n rest s).dlp.line = (framed s).dlp.line
    ∧ (sectorStaged f y n rest s).dlp.requests = (framed s).dlp.requests :=
  ⟨(sectorEvent_only f (framed s)).line, (sectorEvent_only f (framed s)).requests⟩

theorem sectorStaged_sfm : (sectorStaged f y n rest s).sfm = (sectorEvent f s).sfm := sectorEvent_sfm_of f (framed_only s).sfm

theorem sent_sectorStaged (hy : y.id = x.id) : sent (sectorStaged f y n rest s) := by
  obtain ⟨line, requests⟩ := sectorStaged_dlp f y n rest s
  intro w hw
  rw [sectorStaged_rsc] at hw
  cases hw
  unfold readRunWaits
  rw [line, requests, hy]
  exact framed_sent x.id s

theorem sameGround_sectorStaged : sameGround s (sectorStaged f y n rest s) := by
  have eo := sectorEvent_only f (framed s)
  have fo := framed_only s
  exact ⟨eo.lane.trans fo.lane, eo.ctl.trans fo.ctl, eo.conc.trans fo.conc, eo.ttb.trans fo.ttb, eo.mmn.trans fo.mmn⟩

theorem sectorStaged_record (h : n < s.sst.slots.length) : ((sectorStaged f y n rest s).slot n).record = recordOf f := by
  have slots : (sectorEvent f (framed s)).sst.slots = s.sst.slots :=
    congrArg Sst.slots ((sectorEvent_only f (framed s)).sst.trans (framed_only s).sst)
  have kept := setSlot_record n n
  unfold sectorStaged holdSlot
  dsimp only
  refine (kept _ _).trans ?_
  refine (congrArg Slot.record (filled_slot (s := (rearm (sectorEvent f (framed s))).setRun (some y)) ?_ n)).trans ?_
  · show n < (sectorEvent f (framed s)).sst.slots.length
    rw [slots]
    exact h
  · rw [if_pos rfl]

end

/-- The sector completes the join that has waited for it (03 R57). -/
theorem stagedArrived_joins (hq : s.spl.search = some q) (hf : q.found = some p) (hr : s.splice z = some r)
    (hst : r.state = .searching) (hk : (p + q.window.length) / 588 < s.spl.staging.length) :
    stagedArrived z s = verifiedJoin z r p q.window.length s := by
  have staged : continuationStaged q p s = true := decide_eq_true hk
  unfold stagedArrived
  rw [hr]
  dsimp only
  rw [hst]
  dsimp only
  rw [hq]
  dsimp only
  rw [hf]
  exact if_pos staged

theorem sameLevels_beginEvent (s : State) : sameLevels s (beginEvent s) :=
  sameLevels_trans (t := { s with evReports := 0 }) ⟨rfl, rfl⟩ (sameLevels_lineStart _)

/-- Settles O24: the join by `verifiedJoin_moves` and `joinedRun_dealt`, the wait, the failed attempt, and the sector that was
waited for by `joinedRun_afterStaged`. -/
theorem acceptedSearchJoins : Obligations.AcceptedSearchJoins := by
  unfold Obligations.AcceptedSearchJoins
  refine ⟨?_, ?_⟩
  · intro q r p s hq hf hr hst hout k a owned
    have taken := exec_searchDone hq hf hr hst
    rw [searchResolves_accepted (by rw [searchOutcome_beginEvent]; exact hout)] at taken
    have record : (beginEvent s).splice q.zone = some r := by rw [beginEvent_splice]; exact hr
    have staging : (beginEvent s).spl.staging = s.spl.staging := by rw [beginEvent_spl]
    have owns : ownsReread q.zone (beginEvent s) = true ↔ owned := by rw [ownsReread_iff, beginEvent_rsc]
    have late : s.spl.staging.length ≤ k → continuationStaged q p (beginEvent s) = false := fun h =>
      decide_eq_false (by rw [staging]; omega)
    refine ⟨fun n hn hm => ?_, fun hle own => ?_, fun hle own => ?_⟩
    · obtain ⟨hk, hget⟩ := List.getElem?_eq_some_iff.mp hn
      have parts : s.spl.staging.drop k = n :: s.spl.staging.drop (k + 1) := by
        rw [List.drop_eq_getElem_cons hk, hget]
      have restLength : (s.spl.staging.drop (k + 1)).length = s.spl.staging.length - (k + 1) := List.length_drop
      rw [if_pos (show continuationStaged q p (beginEvent s) = true from decide_eq_true (by rw [staging]; exact hk))] at taken
      obtain ⟨m, v, hle, can, stop, dealtWith, rejoined, awaits⟩ :=
        verifiedJoin_moves (sameGround_beginEvent s) record (by rw [staging]; exact parts) hm
      obtain ⟨work, once⟩ := dealt_scheduling (z := q.zone) (whole := m + 1 == ((beginEvent s).spl.staging.drop k).length)
        (tail := a + m + 1) (sent_of_awaits awaits (sent_beginEvent s))
      have done := rejoined.scheduled work once
      rw [dealtWith] at taken
      refine ⟨_, m, taken, by omega, can, ?_, ?_, done.splice, done.staging, done.search, done.tail, fun level => done.told ?_,
        fun x hx hp ho => ?_, done.sfm.trans (beginEvent_sfm s), done.other, done.disc⟩
      · exact stop.imp (fun e => by omega) id
      · rw [done.entries, movedEntries_staged parts hle]
      · rw [(sameLevels_beginEvent s).level, (sameLevels_beginEvent s).2]
        exact level
      · refine joinedRun_dealt awaits (sent_beginEvent s) (by rw [beginEvent_rsc]; exact hx) hp ho ?_ rejoined.other.1
          rfl rfl rfl
        rw [beq_iff_eq, staging, List.length_drop]
        omega
    · rw [late hle, if_neg Bool.false_ne_true, if_pos (owns.mpr own), beginEvent_spl] at taken
      exact taken
    · rw [late hle, if_neg Bool.false_ne_true, if_neg (mt owns.mp own)] at taken
      have sfm := failureScored_sfm (r := r) (beginEvent_sfm s)
      refine ⟨_, taken, ?_, fun more => ?_, fun last => (failedAttempt_ended record last).1⟩
      · obtain more | last := Nat.lt_or_ge 1 r.attemptsLeft
        · exact (failedAttempt_retried record more (sent_beginEvent s)).2.2.1.trans sfm
        · exact (failedAttempt_ended record last).2.trans sfm
      · obtain ⟨h1, -, -, h4, -⟩ := failedAttempt_retried record more (sent_beginEvent s)
        refine ⟨h1, fun y => ?_⟩
        have kept := h4 y
        unfold laneKept at kept ⊢
        rw [kept, beginEvent_lane]
  · intro f x q r p n rest s hi hrun hid hl hp ho hq hf hr hst hk hlen hfree hn a hm
    have taken : exec (.sector f) s = .next (endEvent (takeSector f (framed s))) := frameEvent_framed hi
    rw [takeSector_staged hrun hid hl hp hlen hfree, ho] at taken
    have spl := sectorStaged_spl f (rereadCounted f x) n rest s
    have rsc := sectorStaged_rsc f (rereadCounted f x) n rest s
    have ground := sameGround_sectorStaged f (rereadCounted f x) n rest s
    have hs : sent (sectorStaged f (rereadCounted f x) n rest s) := sent_sectorStaged f _ n rest s rfl
    have requests := (sectorStaged_dlp f (rereadCounted f x) n rest s).2
    have sfm := sectorStaged_sfm f (rereadCounted f x) n rest s
    have stagedRecord := sectorStaged_record f (rereadCounted f x) n rest s hn
    generalize sectorStaged f (rereadCounted f x) n rest s = b at *
    have record : b.splice q.zone = some r := by
      unfold State.splice
      rw [spl]
      exact hr
    have parts : b.spl.staging.drop ((p + q.window.length) / 588) = [n] := by
      rw [spl, hk]
      simp
    obtain ⟨m, v, hle, -, -, dealtWith, rejoined, awaits⟩ := verifiedJoin_moves ground record parts (by rw [hk]; exact hm)
    obtain rfl : m = 0 := Nat.le_zero.mp hle
    rw [hk] at parts dealtWith rejoined awaits
    rw [stagedArrived_joins (by rw [spl]; exact hq) hf record hst (by rw [spl, hk]; simp), dealtWith] at taken
    have run : b.rsc.run = some (rereadCounted f x) := by rw [rsc]
    have rearmed : { s.rsc with stall := some s.rsc.nextLimit } = (rearm (framed s)).rsc := by
      unfold rearm
      rw [(framed_only s).rsc]
    have done := rejoined.afterStaged (w := 0 + 1 == (b.spl.staging.drop s.spl.staging.length).length) awaits hs run hp ho
    refine ⟨_, taken, ?_, ?_, done.splice, done.staging, done.search, done.tail, ?_, done.sfm.trans sfm, done.other,
      done.disc⟩
    · rw [done.entries]
      rfl
    · rw [done.records, stagedRecord]
      rfl
    · exact joinedRun_afterStaged (y := rearm (framed s)) (whole := True) awaits hs run hp ho
        (w := 0 + 1 == (b.spl.staging.drop s.spl.staging.length).length) (by rw [parts]; simp) rejoined.other.1
        (by rw [rsc, ← rearmed]) requests (by rw [rsc, ← rearmed])

end Sys2Proof.Safety
end

-- ==== The surface map's operations ====
section
/-! SUPPORT. Lookup, removal, change and creation of a surface record, and the law of the map under each of them (04 R69, R73 to
R75). -/

namespace Sys2Proof.Safety

open Sys2Proof.Machine

variable {m : Sfm} {r v : SurfaceRec} {g h : Nat}

/-! ## Lookup -/

theorem find_eq_none : m.find g = none ↔ ∀ r ∈ m.records, r.granule ≠ g := by
  unfold Sfm.find
  simp

theorem find_some (e : m.find g = some r) : r ∈ m.records ∧ r.granule = g :=
  ⟨List.mem_of_find?_eq_some e, by simpa using List.find?_some e⟩

theorem granules_nodup (hm : mapLaw m) : (m.records.map (·.granule)).Nodup := by
  obtain ⟨-, sorted, -, -⟩ := hm
  exact List.pairwise_map.mpr (sorted.imp fun k => Nat.ne_of_lt k)

/-- Under the law a granule names one record (04 R69). -/
theorem eq_of_granule (hm : mapLaw m) (hr : r ∈ m.records) (hv : v ∈ m.records) (e : r.granule = v.granule) : r = v :=
  List.inj_on_of_nodup_map (granules_nodup hm) hr hv e

theorem find_of_mem (hm : mapLaw m) (hr : r ∈ m.records) : m.find r.granule = some r := by
  obtain e | ⟨x, e⟩ := (m.find r.granule).eq_none_or_eq_some
  · exact absurd rfl (find_eq_none.mp e r hr)
  · obtain ⟨hx, same⟩ := find_some e
    rw [e, eq_of_granule hm hx hr same]

theorem recordLaw_of_find (hm : mapLaw m) (e : m.find g = some r) : recordLaw r := by
  obtain ⟨-, -, each, -⟩ := hm
  exact each r (find_some e).1

theorem mem_recency (hm : mapLaw m) : g ∈ m.recency ↔ ∃ r ∈ m.records, r.granule = g := by
  obtain ⟨-, -, -, perm⟩ := hm
  rw [perm.mem_iff, List.mem_map]

theorem recency_nodup (hm : mapLaw m) : m.recency.Nodup := by
  have distinct := granules_nodup hm
  obtain ⟨-, -, -, perm⟩ := hm
  exact perm.nodup_iff.mpr distinct

/-! ## Removal -/

theorem find_remove (m : Sfm) (g h : Nat) : (m.remove g).find h = if h = g then none else m.find h := by
  unfold Sfm.remove Sfm.find
  dsimp only
  rw [List.find?_filter]
  split
  · rename_i e
    subst e
    simp
  · rename_i hne
    congr 1
    funext x
    by_cases e : x.granule = h <;> simp [e, hne]

theorem mapLaw_remove (g : Nat) (hm : mapLaw m) : mapLaw (m.remove g) := by
  obtain ⟨len, sorted, each, perm⟩ := hm
  refine ⟨(List.length_filter_le _ _).trans len, sorted.filter _, fun x hx => each x (List.mem_filter.mp hx).1, ?_⟩
  have named := perm.filter (· != g)
  rw [List.filter_map] at named
  exact named

/-- The removal of a record that the map holds leaves one fewer. -/
theorem length_remove (hv : v ∈ m.records) : (m.remove v.granule).records.length < m.records.length :=
  List.length_filter_lt_length_iff_exists.mpr ⟨v, hv, by simp⟩

/-! ## Change -/

theorem granule_update (r x : SurfaceRec) : (if x.granule = r.granule then r else x).granule = x.granule := by
  split
  · rename_i e
    exact e.symm
  · rfl

theorem granules_update (m : Sfm) (r : SurfaceRec) :
    (m.update r).records.map (·.granule) = m.records.map (·.granule) := by
  unfold Sfm.update
  rw [List.map_map]
  exact List.map_congr_left fun x _ => granule_update r x

theorem find_update (m : Sfm) (r : SurfaceRec) (h : Nat) :
    (m.update r).find h = (m.find h).map fun x => if x.granule = r.granule then r else x := by
  unfold Sfm.update Sfm.find
  rw [List.find?_map]
  congr 2
  funext x
  exact congrArg (· == h) (granule_update r x)

theorem find_update_same (e : m.find r.granule = some v) : (m.update r).find r.granule = some r := by
  rw [find_update, e, Option.map_some, if_pos (find_some e).2]

theorem find_update_other (hne : h ≠ r.granule) : (m.update r).find h = m.find h := by
  rw [find_update]
  obtain e | ⟨x, e⟩ := (m.find h).eq_none_or_eq_some
  · rw [e]
    rfl
  · rw [e, Option.map_some, if_neg fun k => hne ((find_some e).2.symm.trans k)]

theorem mapLaw_update (hm : mapLaw m) (e : m.find r.granule = some v) (hr : recordLaw r) : mapLaw (m.update r) := by
  have recent : r.granule ∈ m.recency := (mem_recency hm).mpr ⟨v, find_some e⟩
  have distinct := recency_nodup hm
  obtain ⟨len, sorted, each, perm⟩ := hm
  refine ⟨?_, List.pairwise_map.mp ?_, fun x hx => ?_, ?_⟩
  · rw [← List.length_map (·.granule), granules_update, List.length_map]
    exact len
  · rw [granules_update]
    exact List.pairwise_map.mpr sorted
  · obtain ⟨y, hy, rfl⟩ := List.mem_map.mp hx
    split
    · exact hr
    · exact each y hy
  · rw [granules_update]
    refine List.Perm.trans ?_ perm
    unfold Sfm.update
    dsimp only
    rw [← distinct.erase_eq_filter]
    exact (List.perm_append_singleton _ _).trans (List.perm_cons_erase recent).symm

/-! ## Creation -/

theorem insertRec_perm (r : SurfaceRec) (rs : List SurfaceRec) : (insertRec r rs).Perm (r :: rs) := by
  induction rs with
  | nil => exact .refl _
  | cons x xs ih =>
    unfold insertRec
    split
    · exact .refl _
    · exact (ih.cons x).trans (.swap r x xs)

theorem insertRec_sorted {rs : List SurfaceRec} (sorted : rs.Pairwise fun x y => x.granule < y.granule)
    (new : ∀ x ∈ rs, x.granule ≠ r.granule) : (insertRec r rs).Pairwise fun x y => x.granule < y.granule := by
  induction rs with
  | nil => exact List.pairwise_singleton _ r
  | cons x xs ih =>
    obtain ⟨hx, hxs⟩ := List.pairwise_cons.mp sorted
    unfold insertRec
    split
    · rename_i first
      refine List.pairwise_cons.mpr ⟨fun y hy => ?_, sorted⟩
      obtain rfl | hy := List.mem_cons.mp hy
      · exact first
      · exact first.trans (hx y hy)
    · rename_i later
      refine List.pairwise_cons.mpr ⟨fun y hy => ?_, ih hxs fun y hy => new y (List.mem_cons_of_mem _ hy)⟩
      obtain rfl | hy := List.mem_cons.mp ((insertRec_perm r xs).subset hy)
      · have := new x List.mem_cons_self
        omega
      · exact hx y hy

theorem find_insertRec {rs : List SurfaceRec} (new : ∀ x ∈ rs, x.granule ≠ r.granule) :
    (insertRec r rs).find? (fun x => x.granule == h)
      = if h = r.granule then some r else rs.find? fun x => x.granule == h := by
  induction rs with
  | nil =>
    rw [insertRec, List.find?_cons]
    grind
  | cons x xs ih =>
    have ih := ih fun y hy => new y (List.mem_cons_of_mem _ hy)
    have hx := new x List.mem_cons_self
    unfold insertRec
    split
    · rw [List.find?_cons]
      grind
    · rw [List.find?_cons, List.find?_cons, ih]
      grind

theorem find_add (new : m.find r.granule = none) (h : Nat) :
    (m.add r).find h = if h = r.granule then some r else m.find h :=
  find_insertRec (find_eq_none.mp new)

theorem mapLaw_add (hm : mapLaw m) (room : m.records.length < 64) (new : m.find r.granule = none) (hr : recordLaw r) :
    mapLaw (m.add r) := by
  obtain ⟨-, sorted, each, perm⟩ := hm
  have inserted := insertRec_perm r m.records
  refine ⟨?_, insertRec_sorted sorted (find_eq_none.mp new), fun x hx => ?_, ?_⟩
  · exact inserted.length_eq.trans_le room
  · obtain rfl | hx := List.mem_cons.mp (inserted.subset hx)
    · exact hr
    · exact each x hx
  · exact (List.perm_append_singleton _ _).trans ((perm.cons r.granule).trans (inserted.map SurfaceRec.granule).symm)

/-! ## The record that makes room -/

/-- The better of a least count so far and a record: the record where its count is lower (04 R75). -/
def lowerOf (best : Option SurfaceRec) (r : SurfaceRec) : Option SurfaceRec :=
  match best with
  | none => some r
  | some b => if r.count < b.count then some r else some b

theorem victimOf_eq (m : Sfm) : victimOf m = (m.recency.filterMap m.find).foldl lowerOf none := rfl

/-- The first of the lowest counts of a list: lower than all before it, and no higher than all after it. -/
theorem foldl_lowerOf (rs : List SurfaceRec) :
    (rs = [] ∧ rs.foldl lowerOf none = none)
      ∨ ∃ before v after, rs = before ++ v :: after ∧ rs.foldl lowerOf none = some v
        ∧ (∀ x ∈ before, v.count < x.count) ∧ ∀ x ∈ after, v.count ≤ x.count := by
  induction rs using List.reverseRecOn with
  | nil => exact .inl ⟨rfl, rfl⟩
  | append_singleton rs r ih =>
    right
    rw [List.foldl_append]
    obtain ⟨rfl, e⟩ | ⟨before, v, after, split, e, above, least⟩ := ih
    · exact ⟨[], r, [], rfl, by rw [e]; rfl, by simp, by simp⟩
    · rw [e]
      by_cases lower : r.count < v.count
      · refine ⟨rs, r, [], rfl, if_pos lower, fun x hx => ?_, by simp⟩
        rw [split] at hx
        obtain hx | hx := List.mem_append.mp hx
        · exact lower.trans (above x hx)
        · obtain rfl | hx := List.mem_cons.mp hx
          · exact lower
          · exact lower.trans_le (least x hx)
      · refine ⟨before, v, after ++ [r], by rw [split]; simp, if_neg lower, above, fun x hx => ?_⟩
        obtain hx | hx := List.mem_append.mp hx
        · exact least x hx
        · rw [List.mem_singleton.mp hx]
          omega

/-- The records in recency order, under the law: each once, and its granules are the recency order's (04 R69). -/
theorem granules_recent (hm : mapLaw m) : (m.recency.filterMap m.find).map (·.granule) = m.recency := by
  have found : ∀ g ∈ m.recency, ((m.find g).map (·.granule)) = some g := by
    intro g hg
    obtain ⟨r, hr, rfl⟩ := (mem_recency hm).mp hg
    rw [find_of_mem hm hr]
    rfl
  rw [List.map_filterMap, List.filterMap_congr found]
  exact List.filterMap_some

theorem mem_recent (hm : mapLaw m) : r ∈ m.recency.filterMap m.find ↔ r ∈ m.records := by
  rw [List.mem_filterMap]
  constructor
  · rintro ⟨g, -, e⟩
    exact (find_some e).1
  · intro hr
    exact ⟨r.granule, (mem_recency hm).mpr ⟨r, hr, rfl⟩, find_of_mem hm hr⟩

/-- The record that a full map gives up: one with the lowest count, the least recent among those (04 R75). -/
structure Victim (m : Sfm) (v : SurfaceRec) : Prop where
  mem    : v ∈ m.records
  lowest : ∀ r ∈ m.records, v.count ≤ r.count
  oldest : ∀ r ∈ m.records, r.count = v.count → m.recency.idxOf v.granule ≤ m.recency.idxOf r.granule

theorem victimOf_spec (hm : mapLaw m) (some_held : m.records ≠ []) : ∃ v, victimOf m = some v ∧ Victim m v := by
  rw [victimOf_eq]
  obtain ⟨none_recent, -⟩ | ⟨before, v, after, split, e, above, least⟩ := foldl_lowerOf (m.recency.filterMap m.find)
  · obtain ⟨r, hr⟩ := List.exists_mem_of_ne_nil _ some_held
    have := (mem_recent hm).mpr hr
    rw [none_recent] at this
    cases this
  · have place : ∀ x, x ∈ m.records ↔ x ∈ before ∨ x = v ∨ x ∈ after := by
      intro x
      rw [← mem_recent hm, split]
      simp
    have order : m.recency = before.map (·.granule) ++ v.granule :: after.map (·.granule) := by
      rw [← granules_recent hm, split]
      simp
    have hv : v ∈ m.records := (place v).mpr (.inr (.inl rfl))
    have behind : ∀ r ∈ m.records, r.count = v.count → r.granule ∉ before.map (·.granule) := by
      intro r hr same hb
      obtain ⟨x, hx, e⟩ := List.mem_map.mp hb
      obtain rfl := eq_of_granule hm ((place x).mpr (.inl hx)) hr e
      have := above x hx
      omega
    refine ⟨v, e, hv, fun r hr => ?_, fun r hr same => ?_⟩
    · obtain hb | rfl | ha := (place r).mp hr
      · exact (above r hb).le
      · exact le_rfl
      · exact least r ha
    · rw [order, List.idxOf_append_of_notMem (behind v hv rfl), List.idxOf_append_of_notMem (behind r hr same),
        List.idxOf_cons_self]
      omega

end Sys2Proof.Safety
end

-- ==== Health events ====
section
/-! SUPPORT. What a health event makes of the surface map, case by case, with the reports it posts (04 R71 to R77). -/

namespace Sys2Proof.Safety

open Sys2Proof.Machine

variable {s : State} {m : Sfm} {r v : SurfaceRec} {g h n : Nat} {change : Int} {cause : SurfaceCause}

/-! ## The thresholds -/

theorem stateAfter_clean (n : Nat) (change : Int) : stateAfter .clean n change =
    if 0 < change then (if n < 32 then .clean else if n < 128 then .worn else .damaged) else .clean := by
  unfold stateAfter risingState fallingState
  split
  · by_cases worn : 32 ≤ n
    · by_cases damaged : 128 ≤ n <;> simp [worn, damaged, not_lt.mpr worn]
    · simp [worn]
  · simp

theorem stateAfter_worn (n : Nat) (change : Int) : stateAfter .worn n change =
    if 0 < change then (if n < 128 then .worn else .damaged) else (if n ≤ 15 then .clean else .worn) := by
  unfold stateAfter risingState fallingState
  split
  · by_cases damaged : 128 ≤ n <;> simp [damaged]
  · by_cases clean : n ≤ 15 <;> simp [clean]

theorem stateAfter_damaged (n : Nat) (change : Int) : stateAfter .damaged n change =
    if 0 < change then .damaged else (if n ≤ 95 then .worn else .damaged) := by
  unfold stateAfter risingState fallingState
  split
  · simp
  · by_cases worn : n ≤ 95 <;> simp [worn]

/-- The state of a record that a positive change creates is that of a CLEAN one it raises (04 R74, R76). -/
theorem risingState_clean (positive : 0 < change) (n : Nat) : risingState .clean n = stateAfter .clean n change :=
  (if_pos positive).symm

/-- A change leaves a record with a state that suits its count (04 R76). -/
theorem recordLaw_changed (hr : recordLaw r) (left : countAfter r.count change ≠ 0) :
    recordLaw ⟨g, countAfter r.count change, stateAfter r.state (countAfter r.count change) change⟩ := by
  obtain ⟨low, high, clean, damaged⟩ := hr
  have count : countAfter r.count change = min 255 ((r.count : Int) + change).toNat := rfl
  generalize countAfter r.count change = n at left count ⊢
  refine ⟨by dsimp only; omega, by dsimp only; omega, ?_, ?_⟩ <;> dsimp only
  · cases e : r.state with
    | clean =>
      have := clean e
      rw [stateAfter_clean]
      grind
    | worn =>
      rw [stateAfter_worn]
      grind
    | damaged =>
      rw [stateAfter_damaged]
      grind
  · cases e : r.state with
    | clean =>
      rw [stateAfter_clean]
      grind
    | worn =>
      rw [stateAfter_worn]
      grind
    | damaged =>
      have := damaged e
      rw [stateAfter_damaged]
      grind

theorem recordLaw_created (low : 1 ≤ n) (high : n ≤ 255) : recordLaw ⟨g, n, risingState .clean n⟩ := by
  rw [risingState_clean Int.one_pos, stateAfter_clean, if_pos Int.one_pos]
  refine ⟨low, high, ?_, ?_⟩ <;> dsimp only <;> grind

/-! ## A granule that has a record -/

/-- A record as a change that leaves a count leaves it (04 R73, R76). -/
def changed (r : SurfaceRec) (change : Int) : SurfaceRec :=
  ⟨r.granule, countAfter r.count change, stateAfter r.state (countAfter r.count change) change⟩

theorem healthEvent_held (e : s.sfm.find g = some r) :
    healthEvent g change cause s = changeRecord r change cause s := by
  unfold healthEvent
  rw [e]

theorem healthEvent_removes (e : s.sfm.find g = some r) (gone : countAfter r.count change = 0) :
    healthEvent g change cause s = { s with sfm := s.sfm.remove g } := by
  rw [healthEvent_held e, ← (find_some e).2]
  exact if_pos gone

theorem healthEvent_silent (e : s.sfm.find g = some r) (left : countAfter r.count change ≠ 0)
    (same : (changed r change).state = r.state) :
    healthEvent g change cause s = { s with sfm := s.sfm.update (changed r change) } := by
  rw [healthEvent_held e]
  exact (if_neg left).trans (if_pos same)

theorem healthEvent_told (e : s.sfm.find g = some r) (left : countAfter r.count change ≠ 0)
    (new : (changed r change).state ≠ r.state) :
    healthEvent g change cause s =
      post (.surfaceState g r.state (changed r change).state (countAfter r.count change) cause)
        { s with sfm := s.sfm.update (changed r change) } := by
  rw [healthEvent_held e, ← (find_some e).2]
  exact (if_neg left).trans (if_neg new)

theorem healthEvent_updates (cause : SurfaceCause) (e : s.sfm.find g = some r) (left : countAfter r.count change ≠ 0) :
    (healthEvent g change cause s).sfm = s.sfm.update (changed r change) := by
  by_cases same : (changed r change).state = r.state
  · rw [healthEvent_silent e left same]
  · rw [healthEvent_told e left same, post_sfm]

/-- An event of a granule that has a record changes no other record (04 R73). -/
theorem find_healthEvent_other (cause : SurfaceCause) (e : s.sfm.find g = some r) (other : h ≠ g) :
    (healthEvent g change cause s).sfm.find h = s.sfm.find h := by
  by_cases gone : countAfter r.count change = 0
  · rw [healthEvent_removes e gone, find_remove, if_neg other]
  · have granule : (changed r change).granule = g := (find_some e).2
    rw [healthEvent_updates cause e gone, find_update_other (granule ▸ other)]

/-! ## A granule that has none -/

theorem healthEvent_ignored (e : s.sfm.find g = none) (none_up : change ≤ 0) : healthEvent g change cause s = s := by
  unfold healthEvent
  rw [e]
  exact if_neg (not_lt.mpr none_up)

/-- The record a positive change creates (04 R74, R76). -/
def created (g : Nat) (change : Int) : SurfaceRec := ⟨g, change.toNat, risingState .clean change.toNat⟩

theorem healthEvent_missing (e : s.sfm.find g = none) (up : 0 < change) :
    healthEvent g change cause s = { evictForRoom s with sfm := (evictForRoom s).sfm.add (created g change) } := by
  unfold healthEvent
  rw [e]
  exact if_pos up

theorem healthEvent_creates (e : s.sfm.find g = none) (up : 0 < change) (room : s.sfm.records.length < 64) :
    healthEvent g change cause s = { s with sfm := s.sfm.add (created g change) } := by
  rw [healthEvent_missing e up, show evictForRoom s = s from if_pos room]

theorem post_setSfm (x : Report) (s : State) (m : Sfm) : { post x s with sfm := m } = post x { s with sfm := m } := by
  unfold post
  rw [show levelOf x { s with sfm := m } = levelOf x s from rfl]
  dsimp only
  split <;> rfl

/-- The map with one record given up and the new one created. -/
def replaced (v : SurfaceRec) (g : Nat) (change : Int) (m : Sfm) : Sfm := (m.remove v.granule).add (created g change)

theorem evictForRoom_full (full : 64 ≤ s.sfm.records.length) (given : victimOf s.sfm = some v) :
    evictForRoom s = if v.state = .clean then { s with sfm := s.sfm.remove v.granule }
      else post (.surfaceState v.granule v.state .clean 0 .evicted) { s with sfm := s.sfm.remove v.granule } := by
  unfold evictForRoom
  rw [if_neg (not_lt.mpr full), given]

theorem healthEvent_evicts_silent (e : s.sfm.find g = none) (up : 0 < change) (full : 64 ≤ s.sfm.records.length)
    (given : victimOf s.sfm = some v) (clean : v.state = .clean) :
    healthEvent g change cause s = { s with sfm := replaced v g change s.sfm } := by
  rw [healthEvent_missing e up, evictForRoom_full full given, if_pos clean]
  rfl

theorem healthEvent_evicts_told (e : s.sfm.find g = none) (up : 0 < change) (full : 64 ≤ s.sfm.records.length)
    (given : victimOf s.sfm = some v) (scored : v.state ≠ .clean) :
    healthEvent g change cause s =
      post (.surfaceState v.granule v.state .clean 0 .evicted) { s with sfm := replaced v g change s.sfm } := by
  rw [healthEvent_missing e up, evictForRoom_full full given, if_neg scored, post_sfm, post_setSfm]
  rfl

theorem healthEvent_replaces (cause : SurfaceCause) (e : s.sfm.find g = none) (up : 0 < change)
    (full : 64 ≤ s.sfm.records.length) (given : victimOf s.sfm = some v) :
    (healthEvent g change cause s).sfm = replaced v g change s.sfm := by
  by_cases clean : v.state = .clean
  · rw [healthEvent_evicts_silent e up full given clean]
  · rw [healthEvent_evicts_told e up full given clean, post_sfm]

/-- What a full map that has given a record up and taken the new one holds (04 R74, R75). -/
theorem find_replaced (e : m.find g = none) (h : Nat) : (replaced v g change m).find h =
    if h = g then some (created g change) else if h = v.granule then none else m.find h := by
  have new : (m.remove v.granule).find (created g change).granule = none := by
    rw [find_remove]
    split
    · rfl
    · exact e
  unfold replaced
  rw [find_add new, find_remove]
  rfl

/-! ## The law of the map -/

/-- A health event of at most 255 keeps the law of the map (04 R69, R73 to R76). -/
theorem mapLaw_healthEvent (cause : SurfaceCause) (fits : change ≤ 255) (hm : mapLaw s.sfm) :
    mapLaw (healthEvent g change cause s).sfm := by
  obtain missing | ⟨r, held⟩ := (s.sfm.find g).eq_none_or_eq_some
  · by_cases up : 0 < change
    · have law : recordLaw (created g change) := recordLaw_created (by omega) (by omega)
      by_cases room : s.sfm.records.length < 64
      · rw [healthEvent_creates missing up room]
        exact mapLaw_add hm room missing law
      · obtain ⟨v, given, victim⟩ := victimOf_spec hm (List.ne_nil_of_length_pos (by omega))
        rw [healthEvent_replaces cause missing up (not_lt.mp room) given]
        have ⟨atMost, _⟩ := hm
        refine mapLaw_add (mapLaw_remove _ hm) ((length_remove victim.mem).trans_le atMost) ?_ law
        rw [find_remove]
        split
        · rfl
        · exact missing
    · rw [healthEvent_ignored missing (not_lt.mp up)]
      exact hm
  · by_cases gone : countAfter r.count change = 0
    · rw [healthEvent_removes held gone]
      exact mapLaw_remove g hm
    · obtain ⟨-, rfl⟩ := find_some held
      rw [healthEvent_updates cause held gone]
      exact mapLaw_update hm held (recordLaw_changed (recordLaw_of_find hm held) gone)

/-! ## The obligation -/

/-- A sector's event goes by the first row of 04 R71 that fits. -/
theorem sectorEvent_of_address {f : SectorFrame} {a : Nat} (e : f.readAddress = some a) (s : State) :
    sectorEvent f s = healthEvent (a / 75) (sectorChange (standardFlags f.flags) f.quality) .sector s := by
  unfold sectorEvent
  rw [e]
  rfl

theorem update_recency_last (m : Sfm) (r : SurfaceRec) : (m.update r).recency.getLast? = some r.granule :=
  List.getLast?_concat

theorem add_recency_last (m : Sfm) (r : SurfaceRec) : (m.add r).recency.getLast? = some r.granule :=
  List.getLast?_concat

/-- Settles O51: the first part by the rows of 04 R71, the second by whether the granule has a record, whether the change
leaves a count or is positive, and whether the map is full. -/
theorem healthEventsScoreTheMap : Obligations.HealthEventsScoreTheMap := by
  unfold Obligations.HealthEventsScoreTheMap
  refine ⟨fun f s => ⟨fun e => ?_, fun a e => ⟨fun k => ?_, fun r rs k => ?_, fun k q => ?_, fun k q => ?_⟩⟩, ?_⟩
  · unfold sectorEvent
    rw [e]
  · rw [sectorEvent_of_address e, k]
    rfl
  · rw [sectorEvent_of_address e, k]
    rfl
  · rw [sectorEvent_of_address e, k, show sectorChange (.runs []) f.quality = 1 from if_pos q]
  · rw [sectorEvent_of_address e, k, show sectorChange (.runs []) f.quality = -1 from if_neg (not_le.mpr q)]
  intro g change cause s hm
  extract_lets m silent told after
  have after_eq : ∀ st n, after st n = stateAfter st n change := by
    rintro (_ | _ | _) n
    · exact (stateAfter_clean n change).symm
    · exact (stateAfter_worn n change).symm
    · exact (stateAfter_damaged n change).symm
  clear_value after
  have silent_of : ∀ {m'}, healthEvent g change cause s = { s with sfm := m' } → silent := by
    intro m' e
    show healthEvent g change cause s = { s with sfm := (healthEvent g change cause s).sfm }
    rw [e]
  have told_of : ∀ {x m'}, healthEvent g change cause s = post x { s with sfm := m' } → told x := by
    intro x m' e
    show healthEvent g change cause s = post x { s with sfm := (healthEvent g change cause s).sfm }
    rw [e, post_sfm]
  refine ⟨fun r held => ?_, fun missing down => ?_, fun missing up => ?_⟩
  · intro n
    refine ⟨fun gone => ⟨?_, silent_of (healthEvent_removes held gone)⟩, fun left => ?_,
      fun h other => find_healthEvent_other cause held other⟩
    · show (healthEvent g change cause s).sfm.find g = none
      rw [healthEvent_removes held gone, find_remove, if_pos rfl]
    · obtain ⟨-, rfl⟩ := find_some held
      have sfm : m = s.sfm.update (changed r change) := healthEvent_updates cause held left
      rw [after_eq, sfm]
      exact ⟨find_update_same held, update_recency_last _ _, fun same => silent_of (healthEvent_silent held left same),
        fun new => told_of (healthEvent_told held left new)⟩
  · have e : healthEvent g change cause s = s := healthEvent_ignored missing down
    exact ⟨congrArg State.sfm e, silent_of e⟩
  · rw [after_eq, ← risingState_clean up]
    by_cases room : s.sfm.records.length < 64
    · have sfm : m = s.sfm.add (created g change) := congrArg State.sfm (healthEvent_creates missing up room)
      rw [sfm]
      refine ⟨?_, add_recency_last _ _, fun _ => ⟨silent_of (healthEvent_creates missing up room), fun h other => ?_⟩,
        fun full => by omega⟩
      · rw [find_add missing]
        exact if_pos rfl
      · rw [find_add missing]
        exact if_neg other
    · have full := not_lt.mp room
      obtain ⟨v, given, victim⟩ := victimOf_spec hm (List.ne_nil_of_length_pos (by omega))
      have sfm : m = replaced v g change s.sfm := healthEvent_replaces cause missing up full given
      have apart : v.granule ≠ g := find_eq_none.mp missing v victim.mem
      rw [sfm]
      refine ⟨?_, add_recency_last _ _, fun few => absurd few room, fun _ => ⟨v, victim.mem, victim.lowest, victim.oldest,
        ?_, fun clean => silent_of (healthEvent_evicts_silent missing up full given clean),
        fun scored => told_of (healthEvent_evicts_told missing up full given scored), fun h other kept => ?_⟩⟩
      · rw [find_replaced missing, if_pos rfl]
        rfl
      · rw [find_replaced missing, if_neg apart, if_pos rfl]
      · rw [find_replaced missing, if_neg other, if_neg kept]

end Sys2Proof.Safety
end

-- ==== The policy table and the map's pages ====
section
/-! SUPPORT. POLICY_LOAD's row and states, and the page of a MAP reply (04 R78, R79, R81). -/

namespace Sys2Proof.Safety

open Sys2Proof.Machine

variable {s : State} {state start : Byte}

/-! ## POLICY_LOAD -/

theorem clamp_zero (hi n : Nat) : clamp 0 hi n = min n hi := by
  unfold clamp
  omega

theorem nearestSpeed_eq (n : Nat) : nearestSpeed n = if n ≤ 1 then .x1 else if n = 2 then .x2 else .x4 := by
  unfold nearestSpeed
  grind

theorem nearestWindow_eq (n : Nat) : nearestWindow n = if n ≤ 23 then 16 else if n ≤ 47 then 32 else 64 := by
  unfold nearestWindow
  grind

/-- The row that a POLICY LOAD carries (04 R78, R79): the tolerance's range is its field's own. -/
theorem policyOf_eq (f : PolicyFields) : policyOf f =
    { retry := min f.retry.toNat 7
      settle := min f.settle.toNat 4
      overlap := max 1 (min f.overlap.toNat 8)
      speed := if f.speed.toNat ≤ 1 then .x1 else if f.speed.toNat = 2 then .x2 else .x4
      window := if f.window.toNat ≤ 23 then 16 else if f.window.toNat ≤ 47 then 32 else 64
      mismatches := min f.mismatches.toNat 16
      tolerance := f.tolerance.toNat
      lmax := min f.lmax.toNat 32
      rewind := min f.rewind.toNat 8
      gap := min f.gap.toNat 75 } := by
  have tolerance : min f.tolerance.toNat 255 = f.tolerance.toNat := by
    have := f.tolerance.isLt
    omega
  have overlap : clamp 1 8 f.overlap.toNat = max 1 (min f.overlap.toNat 8) := by
    unfold clamp
    rw [Nat.min_comm]
  unfold policyOf
  simp only [clamp_zero, nearestSpeed_eq, nearestWindow_eq, tolerance, overlap]

theorem surfaceOf_none (h : 3 ≤ state.toNat) : surfaceOf state = none := by
  unfold surfaceOf
  split
  · omega
  · omega
  · omega
  · rfl

theorem execPolicyLoad_taken {f : PolicyFields} (h : taken (.policyLoad 12 state f) s = true) :
    exec (.policyLoad 12 state f) s = .next (endEvent (loadPolicy state f (begun s))) :=
  carryOut_taken h rfl (loadPolicy state f)

theorem begun_sfm (s : State) : (begun s).sfm = s.sfm := beginEvent_sfm s

/-- Settles O37: a state that is none of the three, then each of the three. -/
theorem policyLoadReplacesARow : Obligations.PolicyLoadReplacesARow := by
  unfold Obligations.PolicyLoadReplacesARow
  intro state f s h
  dsimp only
  rw [execPolicyLoad_taken h, ← policyOf_eq, ← begun_sfm s]
  refine ⟨fun other => ?_, ?_, ?_, ?_⟩
  · unfold loadPolicy
    rw [surfaceOf_none other]
    rfl
  all_goals
    rintro rfl
    rfl

/-! ## MAP_QUERY -/

theorem mapPage_length (m : Sfm) (start : Nat) : (mapPage m start).length = min 16 (m.records.length - start) := by
  unfold mapPage
  rw [List.length_take, List.length_drop]

theorem mapPage_getElem? {m : Sfm} {start i : Nat} (h : i < (mapPage m start).length) :
    (mapPage m start)[i]? = m.records[start + i]? := by
  rw [mapPage_length] at h
  unfold mapPage
  rw [List.getElem?_take_of_lt (by omega), List.getElem?_drop]

/-- Settles O41: the page is `mapPage`, taken record by record. -/
theorem mapQueryPages : Obligations.MapQueryPages := by
  unfold Obligations.MapQueryPages
  intro start s h
  refine ⟨mapPage s.sfm start.toNat, ?_, mapPage_length _ _, fun i hi => mapPage_getElem? hi⟩
  rw [← begun_sfm s]
  exact carryOut_taken h rfl (answerMap start.toNat)

end Sys2Proof.Safety
end

-- ==== What leaves the surface map ====
section
/-! SUPPORT. The operations that no health event is part of leave the surface map as it was: of the model's operations only a
sector, a skip, a slip and a failed splice attempt score a granule (04 R71, R72). -/

namespace Sys2Proof.Safety

open Sys2Proof.Machine

variable (s : State) (z : Zone)

/-! ## The scheduler and the end of a splice -/

/-- What the map is, is kept by the delivery line, the scheduler and the end of a splice. -/
theorem spliced_sfm (m : Sfm) : Spliced (fun _ => True) (fun s => s.sfm = m) where
  delivery h e := h.sfm.trans e
  rsc _ _ e := e
  issue _ _ e := e
  discard _ e := e
  flushStaging {s} e := (keepsPlay_flushStaging s).sfm.trans e

@[simp] theorem placeReport_sfm (r : Report) : (placeReport r s).sfm = s.sfm := rfl
@[simp] theorem inOrder_sfm : (inOrder s).sfm = s.sfm := rfl
@[simp] theorem setOverrun_sfm : (setOverrun s).sfm = s.sfm := rfl
@[simp] theorem rearm_sfm : (rearm s).sfm = s.sfm := rfl
@[simp] theorem clearFailures_sfm : (clearFailures s).sfm = s.sfm := rfl
@[simp] theorem refuse_sfm (code : Byte) (why : Reason) : (refuse code why s).sfm = s.sfm := post_sfm _ s
@[simp] theorem discReport_sfm (old : DiscState) (cause : DiscCause) : (discReport old cause s).sfm = s.sfm := post_sfm _ s

@[simp] theorem dropRun_sfm (halt : Bool) : (dropRun halt s).sfm = s.sfm := (spliced_sfm _).dropRun halt rfl

/-- A run's end leaves the map as the consequences of its cause make it (02 R23). -/
@[simp] theorem endRun_sfm (halt : Bool) (f : State → State) :
    (endRun halt f s).sfm = (f (dropRun halt s)).sfm := (spliced_sfm _).endRun halt f rfl

@[simp] theorem cutRun_sfm : (cutRun s).sfm = s.sfm := (spliced_sfm _).cutRun rfl
@[simp] theorem review_sfm : (review s).sfm = s.sfm := (spliced_sfm _).review rfl
@[simp] theorem preemptTest_sfm : (preemptTest s).sfm = s.sfm := (spliced_sfm _).preemptTest rfl
@[simp] theorem cutReread_sfm : (cutReread z s).sfm = s.sfm := (spliced_sfm _).cutReread z rfl
@[simp] theorem clearMechFault_sfm : (clearMechFault s).sfm = s.sfm := (spliced_sfm _).clearMechFault rfl
@[simp] theorem allowAgain_sfm (before : Bool) : (allowAgain before s).sfm = s.sfm := (spliced_sfm _).allowAgain before rfl
@[simp] theorem countFailure_sfm (r : Run) (kind : FailKind) : (countFailure r kind s).sfm = s.sfm :=
  (spliced_sfm _).countFailure r kind rfl
@[simp] theorem dropSector_sfm : (dropSector z s).sfm = s.sfm := (spliced_sfm _).dropSector z rfl
@[simp] theorem checkOwnerLane_sfm : (checkOwnerLane s).sfm = s.sfm := (atWork_checkOwnerLane s).sfm
@[simp] theorem flushStaging_sfm : (flushStaging s).sfm = s.sfm := (spliced_sfm _).flushStaging rfl
@[simp] theorem abandonSplice_sfm : (abandonSplice z s).sfm = s.sfm := (spliced_sfm _).abandonSplice trivial rfl
@[simp] theorem abandonIfMoved_sfm : (abandonIfMoved z s).sfm = s.sfm := (spliced_sfm _).abandonIfMoved trivial rfl

/-! ## Lanes -/

@[simp] theorem takePair_sfm : (takePair z s).sfm = s.sfm := by rw [takePair_only]

@[simp] theorem storeSector_sfm (rec : Sector) (a : Nat) : (storeSector z rec a s).sfm = s.sfm := by rw [storeSector_only]

@[simp] theorem trimLane_sfm (track stop : Nat) : (trimLane z track stop s).sfm = s.sfm := by
  rw [(removal_trimLane z track stop s).rest]

@[simp] theorem rewindEntry_sfm (e : Entry) : (rewindEntry z e s).sfm = s.sfm := by
  unfold rewindEntry
  dsimp only
  rw [State.setLane_sfm, (removal_removeTail z s).rest]

@[simp] theorem rewindLoop_sfm (n : Nat) (px py : Bool) : (rewindLoop n z px py s).sfm = s.sfm := by
  induction n generalizing s px py with
  | zero => rfl
  | succ n ih =>
    unfold rewindLoop
    split
    · rfl
    · dsimp only
      split
      · rfl
      · split
        · split
          · split
            · rfl
            · simp [ih]
          · simp [ih]
        · simp [ih]

@[simp] theorem splicePath_sfm (cause : SpliceCause) : (splicePath z cause s).sfm = s.sfm :=
  rewindLoop_sfm s z _ false false

@[simp] theorem stepOver_sfm (a : Nat) : (stepOver z a s).sfm = s.sfm := rfl

/-! ## Zones -/

@[simp] theorem flushWith_sfm : (flushWith z s).sfm = s.sfm := by
  obtain ⟨flushed, kept, -⟩ := flushWith_spec z s
  rw [kept.sfm, flushed.rest]

@[simp] theorem enterState_sfm (new : ZoneState) (cause : ZoneCause) : (enterState z new cause s).sfm = s.sfm :=
  (enterState_spec z new cause s).sfm

@[simp] theorem enterIdle_sfm (cause : ZoneCause) : (enterIdle z cause s).sfm = s.sfm := (enterIdle_spec z cause s).sfm

@[simp] theorem silence_sfm : (silence z s).sfm = s.sfm := rfl

@[simp] theorem endProgram_sfm : (endProgram z s).sfm = s.sfm := by simp [endProgram]

@[simp] theorem settleTail_sfm : (settleTail z s).sfm = s.sfm := by
  simp [settleTail, zoneTests_sfm, armOrReadOver_sfm]

@[simp] theorem consumeOrigin_sfm (o : Origin) : (consumeOrigin z o s).sfm = s.sfm := by
  obtain e | ⟨p, -, e⟩ := consumeOrigin_eq z o s <;> rw [e]
  rfl

@[simp] theorem cue_sfm (track : Nat) (bounds : Nat × Nat) (a : Nat) : (cue z track bounds a s).sfm = s.sfm := by
  simp [cue, zoneTests_sfm]

@[simp] theorem swap_sfm : (swap z s).sfm = s.sfm := by
  unfold swap
  split
  · rfl
  · simp

@[simp] theorem withdrawRest_sfm : (withdrawRest z s).sfm = s.sfm := by simp [withdrawRest]

@[simp] theorem withdraw_sfm : (withdraw z s).sfm = s.sfm := by
  unfold withdraw
  split
  · simp [apply_ite State.sfm]
  · rfl

@[simp] theorem retryChoice_sfm : (retryChoice z s).sfm = s.sfm := by simp [retryChoice]

/-! ## Splice attempts -/

@[simp] theorem verifiedJoin_sfm (r : SpliceRec) (p w : Nat) : (verifiedJoin z r p w s).sfm = s.sfm :=
  (joinStaged_ends fun _ _ => ⟨_, _, _, _, rfl⟩).2

@[simp] theorem gapFallback_sfm (r : SpliceRec) : (gapFallback z r s).sfm = s.sfm := (gapFallback_ends z r s).2

@[simp] theorem fallback_sfm (r : SpliceRec) : (fallback z r s).sfm = s.sfm := (fallback_ends z r s).2

@[simp] theorem abortAttempt_sfm : (abortAttempt z s).sfm = s.sfm := by
  unfold abortAttempt
  split
  · rfl
  · simp [apply_ite State.sfm]

@[simp] theorem abortAttempts_sfm (flying : PerZone Bool) : (abortAttempts flying s).sfm = s.sfm := by
  simp [abortAttempts, apply_ite State.sfm]

@[simp] theorem keepUncountedOf_sfm : (keepUncountedOf z s).sfm = s.sfm := by
  unfold keepUncountedOf
  split
  · rfl
  · simp [apply_ite State.sfm]

@[simp] theorem keepUncounted_sfm : (keepUncounted s).sfm = s.sfm := by simp [keepUncounted]

@[simp] theorem startDecision_sfm (r : SpliceRec) : (startDecision z r s).sfm = s.sfm := by
  simp [startDecision, apply_ite State.sfm]

@[simp] theorem stagedArrived_sfm : (stagedArrived z s).sfm = s.sfm := by
  unfold stagedArrived
  split
  · rfl
  · split
    · rfl
    · simp [apply_ite State.sfm]
    · split
      · rfl
      · split
        · rfl
        · simp [apply_ite State.sfm]

/-! ## Frames of audio -/

@[simp] theorem stopDone_sfm : (stopDone z s).sfm = s.sfm := by simp [stopDone]

@[simp] theorem stopTest_sfm : (stopTest z s).sfm = s.sfm := by simp [stopTest, apply_ite State.sfm]

@[simp] theorem drain_sfm : (drain z s).sfm = s.sfm := by simp [drain, apply_ite State.sfm]

@[simp] theorem produceLane_sfm (e : Entry) (rest : List Entry) : (produceLane z e rest s).2.sfm = s.sfm := by
  unfold produceLane
  dsimp only
  rw [drain_sfm]
  split <;> simp

@[simp] theorem produceHeld_sfm (shortfall : Bool) : (produceHeld z shortfall s).2.sfm = s.sfm := by
  simp [produceHeld, apply_ite State.sfm, zoneTests_sfm]

@[simp] theorem starve_sfm : (starve z s).sfm = s.sfm := by simp [starve]

@[simp] theorem producePair_sfm : (producePair z s).2.sfm = s.sfm := by
  unfold producePair
  dsimp only
  split <;> simp [apply_ite State.sfm]

@[simp] theorem producePairs_sfm (n : Nat) : (producePairs n z s).2.sfm = s.sfm := by
  induction n generalizing s with
  | zero => rfl
  | succ n ih => simp [producePairs, ih]

@[simp] theorem frameDue_sfm : (frameDue z s).sfm = s.sfm := by
  unfold frameDue
  split
  · exact producePairs_sfm s z 147
  · rfl

@[simp] theorem lineFree_sfm : (lineFree s).sfm = s.sfm := by
  unfold lineFree
  split
  · rfl
  · exact (onlyDelivery_arbitrate _).sfm

/-! ## Marks -/

@[simp] theorem skipMark_sfm (cause : SpliceCause) : (skipMark cause s).sfm = s.sfm := by
  unfold skipMark
  split <;> simp [apply_ite State.sfm]

@[simp] theorem stopReading_sfm : (stopReading s).sfm = s.sfm := by
  unfold stopReading
  split <;> simp

@[simp] theorem takeFocusLost_sfm : (takeFocusLost s).sfm = s.sfm := by simp [takeFocusLost, apply_ite State.sfm]

@[simp] theorem takeFocusBack_sfm : (takeFocusBack s).sfm = s.sfm := by simp [takeFocusBack, apply_ite State.sfm]

@[simp] theorem takeTrayHold_sfm : (takeTrayHold s).sfm = s.sfm := by simp [takeTrayHold, apply_ite State.sfm]

@[simp] theorem takeTrayResume_sfm : (takeTrayResume s).sfm = s.sfm := by simp [takeTrayResume, apply_ite State.sfm]

@[simp] theorem takeDiscOut_sfm : (takeDiscOut s).sfm = s.sfm := by
  unfold takeDiscOut
  dsimp only
  rw [discReport_sfm]
  split
  · simp
  all_goals rfl

@[simp] theorem teardownZone_sfm : (teardownZone z s).sfm = s.sfm := by
  simp [teardownZone, apply_ite State.sfm]

/-! ## The intake -/

@[simp] theorem leaveAssembly_sfm : (leaveAssembly s).sfm = s.sfm := by
  unfold leaveAssembly
  split <;> rfl

@[simp] theorem framingError_sfm (kind : Byte) : (framingError kind s).sfm = s.sfm := by
  simp [framingError, apply_ite State.sfm]

@[simp] theorem checkFailed_sfm (kind : Byte) : (checkFailed kind s).sfm = s.sfm := by
  simp [checkFailed, apply_ite State.sfm]

@[simp] theorem badStop_sfm : (badStop s).sfm = s.sfm := by
  unfold badStop
  split <;> simp

@[simp] theorem enqueueControl_sfm (payload : List Byte) : (enqueueControl payload s).sfm = s.sfm := by
  simp [enqueueControl, apply_ite State.sfm]

/-! ## Commands -/

@[simp] theorem openTable_sfm : (openTable s).sfm = s.sfm := by simp [openTable, setDisc, apply_ite State.sfm]

@[simp] theorem addTrack_sfm (track start : Nat) (kind : Option TrackKind) : (addTrack track start kind s).sfm = s.sfm := by
  unfold addTrack
  split
  · simp
  · split <;> simp [apply_ite State.sfm]

@[simp] theorem afterClose_sfm (allowed : Bool) : (afterClose allowed s).sfm = s.sfm := by simp [afterClose]

@[simp] theorem setCadence_sfm (on : Bool) : (setCadence z on s).sfm = s.sfm := rfl

@[simp] theorem enableChange_sfm (was now : Bool) : (enableChange z was now s).sfm = s.sfm := by
  unfold enableChange disableZone
  split <;> simp [apply_ite State.sfm]

@[simp] theorem setupZone_sfm (enable priority : Byte) (t l r c f : Nat) :
    (setupZone z enable priority t l r c f s).sfm = s.sfm := by
  unfold setupZone applySetup
  split <;> simp [zoneTests_sfm]

@[simp] theorem playTests_sfm (track offset : Nat) : (playTests z track offset s).sfm = s.sfm := by
  unfold playTests playTrack
  split <;> simp [apply_ite State.sfm]

@[simp] theorem pauseZone_sfm : (pauseZone z s).sfm = s.sfm := by simp [pauseZone]

@[simp] theorem resumeZone_sfm : (resumeZone z s).sfm = s.sfm := by simp [resumeZone]

@[simp] theorem stopZone_sfm : (stopZone z s).sfm = s.sfm := by simp [stopZone, apply_ite State.sfm]

@[simp] theorem nextTrack_sfm : (nextTrack z s).sfm = s.sfm := by
  unfold nextTrack
  split <;> simp

@[simp] theorem previousTrack_sfm : (previousTrack z s).sfm = s.sfm := by
  unfold previousTrack
  split <;> simp [apply_ite State.sfm]

@[simp] theorem locate_sfm (offset : Int) : (locate z offset s).sfm = s.sfm := by
  unfold locate
  split <;> simp

@[simp] theorem setProgram_sfm (p : List Nat) : (setProgram z p s).sfm = s.sfm := rfl

@[simp] theorem appendTrack_sfm (track : Nat) : (appendTrack z track s).sfm = s.sfm := by
  unfold appendTrack
  split <;> simp [apply_ite State.sfm]

@[simp] theorem removeTrack_sfm (position : Nat) : (removeTrack z position s).sfm = s.sfm := by
  simp [removeTrack, apply_ite State.sfm]

@[simp] theorem clearProgram_sfm : (clearProgram z s).sfm = s.sfm := by simp [clearProgram]

@[simp] theorem setRepeat_sfm (mode : Option RepeatMode) : (setRepeat z mode s).sfm = s.sfm := by
  unfold setRepeat
  split <;> simp [apply_ite State.sfm]

end Sys2Proof.Safety
end

-- ==== The law of the map ====
section
/-! SUPPORT. Every step keeps the law of the map (04 R69, R76). It is no plain property: a health event of more than 255 would
break it, so each place where the model scores a granule is looked at, with the change that it makes. -/

namespace Sys2Proof.Safety

open Sys2Proof.Machine

variable {s t : State}

/-- An operation keeps the law of the map. -/
def keepsMap (f : State → State) : Prop := ∀ s : State, mapLaw s.sfm → mapLaw (f s).sfm

/-- An operation that leaves the map keeps its law. -/
theorem keepsMap_of_sfm {f : State → State} (h : ∀ s, (f s).sfm = s.sfm) : keepsMap f := fun s hs => by
  rw [h s]
  exact hs

/-- A run's end keeps the law where the consequences of its cause do (02 R23). -/
theorem keepsMap_endRun {f : State → State} (halt : Bool) (hf : keepsMap f) : keepsMap (endRun halt f) := fun s hs => by
  rw [endRun_sfm]
  exact hf _ (by rwa [dropRun_sfm])

/-! ## Health events -/

theorem sectorChange_le (flags : FlagList) (quality : Nat) : sectorChange flags quality ≤ 255 := by
  unfold sectorChange
  split
  · decide
  · decide
  · split <;> decide

theorem keepsMap_sectorEvent (f : SectorFrame) : keepsMap (sectorEvent f) := fun s hs => by
  unfold sectorEvent
  split
  · exact hs
  · exact mapLaw_healthEvent .sector (sectorChange_le _ _) hs

theorem keepsMap_failedAttempt (z : Zone) : keepsMap (failedAttempt z) := fun s hs => by
  unfold failedAttempt
  split
  · exact hs
  · have scored := fun g => mapLaw_healthEvent (g := g) .spliceFail (show (16 : Int) ≤ 255 by decide) hs
    dsimp only
    split
    · simp [scored]
    · simp [scored]

theorem keepsMap_rereadEnded (z : Zone) : keepsMap (rereadEnded z) := fun s hs => by
  unfold rereadEnded
  split
  · exact hs
  · split
    · exact hs
    · simpa using hs
    · split
      · split
        · exact keepsMap_failedAttempt z s hs
        · exact hs
      · exact hs

/-! ## Sectors -/

theorem keepsMap_completeRun (r : Run) : keepsMap (completeRun r) := by
  refine keepsMap_endRun false ?_
  split
  · exact keepsMap_rereadEnded r.owner
  · exact fun _ hs => hs

theorem keepsMap_afterCounted : keepsMap afterCounted := fun s hs => by
  unfold afterCounted
  split
  · simpa using hs
  · split
    · exact keepsMap_completeRun _ s hs
    · simpa using hs

theorem keepsMap_stageSector (z : Zone) (f : SectorFrame) : keepsMap (stageSector z f) := fun s hs => by
  unfold stageSector
  split
  · exact keepsMap_endRun true (keepsMap_rereadEnded z) s hs
  · split
    · exact keepsMap_endRun true (keepsMap_rereadEnded z) (setOverrun s) hs
    · rename_i taken
      obtain ⟨_, -, rfl⟩ := takeSlot_some.mp taken
      simpa [holdSlot] using hs

theorem keepsMap_rereadSector (f : SectorFrame) (r : Run) : keepsMap (rereadSector f r) := fun s hs => by
  have staged := fun o : Option Run => keepsMap_stageSector r.owner f ((rearm (sectorEvent f s)).setRun o)
    (keepsMap_sectorEvent f s hs)
  unfold rereadSector
  dsimp only
  split
  · simpa using staged _
  · split
    · exact keepsMap_completeRun _ _ (staged _)
    · simpa using staged _

theorem keepsMap_acceptSector (f : SectorFrame) (r stored : Run) : keepsMap (acceptSector f r stored) := fun s hs => by
  unfold acceptSector
  dsimp only
  split
  · refine keepsMap_afterCounted _ ?_
    split <;> simpa using hs
  · simpa using hs

theorem keepsMap_backSlip (r : Run) : keepsMap (backSlip r) := fun s hs => by
  unfold backSlip
  dsimp only
  split
  · exact hs
  · refine keepsMap_endRun true (keepsMap_of_sfm fun u => splicePath_sfm u _ _) _ ?_
    exact mapLaw_healthEvent .backSlip (by decide) hs

theorem keepsMap_forwardSkip (r : Run) : keepsMap (forwardSkip r) := fun _ hs =>
  keepsMap_endRun true (fun _ h => h) _ (mapLaw_healthEvent .forwardSkip (by decide) hs)

theorem keepsMap_chainOver (r : Run) : keepsMap (chainOver r) :=
  keepsMap_of_sfm fun u => (settleTail_sfm _ _).trans (stepOver_sfm u _ _)

theorem keepsMap_absentUntrusted (r : Run) : keepsMap (absentUntrusted r) := fun s hs => by
  unfold absentUntrusted
  dsimp only
  split
  · exact hs
  · exact keepsMap_endRun true (keepsMap_chainOver _) _ (mapLaw_healthEvent .forwardSkip (by decide) hs)

theorem keepsMap_absentTrusted (f : SectorFrame) (r : Run) : keepsMap (absentTrusted f r) := fun s hs => by
  unfold absentTrusted
  dsimp only
  split
  · exact keepsMap_acceptSector _ _ _ _ hs
  · simpa using hs

theorem keepsMap_addressedSector (f : SectorFrame) (r : Run) : keepsMap (addressedSector f r) := fun s hs => by
  unfold addressedSector
  split
  · split
    · exact keepsMap_acceptSector _ _ _ _ (keepsMap_sectorEvent f _ hs)
    · split
      · exact keepsMap_backSlip r s hs
      · exact keepsMap_forwardSkip r s hs
  · split
    · exact keepsMap_absentTrusted f r s hs
    · exact keepsMap_absentUntrusted r s hs

theorem keepsMap_takeSector (f : SectorFrame) : keepsMap (takeSector f) := fun s hs => by
  unfold takeSector
  split
  · exact hs
  · split
    · exact hs
    · split
      · exact hs
      · split
        · exact keepsMap_rereadSector f _ s hs
        · exact keepsMap_addressedSector f _ s hs

/-! ## Failures and searches -/

theorem keepsMap_failRun (r : Run) (kind : FailKind) : keepsMap (failRun r kind) := fun s hs => by
  unfold failRun
  dsimp only
  split
  · exact keepsMap_rereadEnded r.owner _ (by simpa using hs)
  · simpa using hs

theorem keepsMap_runRefused (id : Byte) : keepsMap (runRefused id) := fun s hs => by
  unfold runRefused
  split
  · exact hs
  · split
    · exact keepsMap_endRun false (keepsMap_failRun _ _) s hs
    · exact hs

theorem keepsMap_searchResolves (z : Zone) (r : SpliceRec) (q : Search) : keepsMap (searchResolves z r q) := fun s hs => by
  unfold searchResolves
  split
  · exact keepsMap_failedAttempt z s hs
  · split
    · simpa using hs
    · split
      · exact hs
      · exact keepsMap_failedAttempt z s hs

theorem keepsMap_searchEnds : keepsMap searchEnds := fun s hs => by
  unfold searchEnds
  split
  · exact hs
  · split
    · exact hs
    · split
      · exact keepsMap_searchResolves _ _ _ s hs
      · exact hs

/-! ## Teardown and the resets -/

/-- A map with no record obeys the law, whatever its policy rows. -/
theorem mapLaw_empty {m : Sfm} (records : m.records = []) (recency : m.recency = []) : mapLaw m := by
  unfold mapLaw
  simp [records, recency]

theorem mapLaw_teardown (s : State) : mapLaw (teardown s).sfm := mapLaw_empty rfl rfl

theorem mapLaw_holdExpires (s : State) : mapLaw (holdExpires s).sfm := by
  have torn := mapLaw_teardown (inOrder (post (.holdExpired s.mmn.disc) s))
  unfold holdExpires
  dsimp only
  generalize teardown (inOrder (post (.holdExpired s.mmn.disc) s)) = u at torn ⊢
  rw [discReport_sfm, inOrder_sfm]
  unfold tableAfterHold
  split <;> exact torn

theorem mapLaw_discChanged (fp : Nat) (s : State) : mapLaw (discChanged fp s).sfm := by
  have torn := mapLaw_teardown (inOrder (post (.discChanged (s.mmn.retained.getD 0) fp) s))
  unfold discChanged
  generalize teardown (inOrder (post (.discChanged (s.mmn.retained.getD 0) fp) s)) = u at torn ⊢
  exact torn

theorem keepsMap_closeDecision (fp : Nat) : keepsMap (closeDecision fp) := fun s hs => by
  unfold closeDecision
  split
  · exact hs
  · split
    · exact hs
    · exact mapLaw_discChanged fp s
  all_goals exact hs

theorem keepsMap_closeTable (count leadOut : Nat) : keepsMap (closeTable count leadOut) := fun s hs => by
  unfold closeTable
  split
  · simpa using hs
  · split
    · simp only [afterClose_sfm, inOrder_sfm, discReport_sfm]
      exact keepsMap_closeDecision _ _ hs
    · simpa using hs

theorem keepsMap_loadPolicy (state : Byte) (row : PolicyFields) : keepsMap (loadPolicy state row) := fun s hs => by
  unfold loadPolicy
  split
  · rename_i st _
    cases st <;> exact hs
  · simpa using hs

theorem mapLaw_linkReset (s : State) : mapLaw (linkReset s).sfm := by
  unfold linkReset
  rw [post_sfm]
  exact mapLaw_empty rfl rfl

theorem softReset_sfm (s : State) : (softReset s).sfm = s.sfm := post_sfm _ _

/-! ## Frames and commands -/

theorem keepsMap_takeMark (event id : Byte) : keepsMap (takeMark event id) := fun s hs => by
  unfold takeMark
  split
  · simpa [takeShock] using hs
  · simpa using hs
  · simpa using hs
  · simpa using hs
  · simpa using hs
  · simpa using hs
  · simpa [takeDiscIn] using hs
  · exact keepsMap_runRefused id s hs
  · exact hs

theorem keepsMap_takeCharacter (c : Byte) : keepsMap (takeCharacter c) := fun s hs => by
  unfold takeCharacter frameEnds handOn
  split
  · exact hs
  · split <;> exact hs
  · dsimp only
    split
    · simpa using hs
    · split
      · split
        · split
          · exact keepsMap_takeSector _ _ hs
          · exact keepsMap_takeMark _ _ _ hs
          · simpa using hs
          · exact hs
        · simpa using hs
      · exact hs

theorem mapLaw_event {f : State → State} (e : event f s = .next t) (hf : keepsMap f) (hs : mapLaw s.sfm) :
    mapLaw t.sfm := by
  cases e
  rw [endEvent_sfm]
  exact hf _ (by rwa [beginEvent_sfm])

theorem mapLaw_frameEvent {f : State → State} (e : frameEvent f s = .next t) (hf : keepsMap f) (hs : mapLaw s.sfm) :
    mapLaw t.sfm := by
  refine mapLaw_event e (fun u hu => ?_) hs
  split
  · exact hu
  · exact hf _ (by rwa [leaveAssembly_sfm])

theorem mapLaw_cmiCarry {c : Instr} {f : State → State} (e : event (cmiCarry c f) s = .next t) (hf : keepsMap f)
    (hs : mapLaw s.sfm) : mapLaw t.sfm := by
  refine mapLaw_event e (fun u hu => ?_) hs
  obtain k | ⟨l, -, k⟩ := cmiCarry_eq c f u <;> rw [k]
  · exact hu
  · exact hf _ hu

theorem keepsMap_lengthTest {f : State → State} (code : Byte) (len right : Nat) (hf : keepsMap f) :
    keepsMap (lengthTest code len right f) := fun s hs => by
  unfold lengthTest
  split
  · exact hf s hs
  · simpa using hs

theorem mapLaw_carryOut {c : Instr} {len right : Nat} {f : State → State} (e : carryOut c len right f s = .next t)
    (hf : keepsMap f) (hs : mapLaw s.sfm) : mapLaw t.sfm :=
  mapLaw_cmiCarry e (keepsMap_lengthTest _ _ _ hf) hs

/-- A command on a zone acts on no map. -/
theorem mapLaw_carryOutZone {c : Instr} {len right : Nat} {zone : Byte} {f : Zone → State → State}
    (e : carryOutZone c len right zone f s = .next t) (hf : ∀ z u, (f z u).sfm = u.sfm) (hs : mapLaw s.sfm) :
    mapLaw t.sfm := by
  refine mapLaw_cmiCarry e (keepsMap_lengthTest _ _ _ (keepsMap_of_sfm fun u => ?_)) hs
  unfold zoneTest
  split
  · exact hf _ u
  · exact refuse_sfm u _ _

theorem playback_sfm {code : Byte} {z : Zone} {accepts : List ZoneState} {disc : Bool} {f : State → State} {u : State}
    (hf : (f u).sfm = u.sfm) : (playback code z accepts disc f u).sfm = u.sfm := by
  unfold playback
  split
  · exact refuse_sfm u _ _
  · exact hf

/-- A command keeps the law of the map (one case for each). -/
theorem mapLaw_exec {c : Instr} (hs : mapLaw s.sfm) (e : exec c s = .next t) : mapLaw t.sfm := by
  cases c with
  | powerOn =>
    change execPowerOn s = .next t at e
    unfold execPowerOn at e
    exact mapLaw_event e (fun _ _ => mapLaw_empty rfl rfl) hs
  | lineBreak =>
    change execLineBreak s = .next t at e
    unfold execLineBreak at e
    refine mapLaw_event e (fun u hu => ?_) hs
    split
    · exact hu
    · exact mapLaw_linkReset u
  | lineIdle =>
    change execLineIdle s = .next t at e
    unfold execLineIdle at e
    exact mapLaw_event e (keepsMap_of_sfm fun u => by split <;> rfl) hs
  | badStopBit =>
    change execBadStopBit s = .next t at e
    unfold execBadStopBit at e
    exact mapLaw_event e (keepsMap_of_sfm badStop_sfm) hs
  | headerTestFailed kind => exact mapLaw_frameEvent e (keepsMap_of_sfm fun u => framingError_sfm u kind) hs
  | checkError kind => exact mapLaw_frameEvent e (keepsMap_of_sfm fun u => checkFailed_sfm u kind) hs
  | unknownKindFrame _ => exact mapLaw_frameEvent e (fun _ hu => hu) hs
  | sector f => exact mapLaw_frameEvent e (keepsMap_takeSector f) hs
  | stallTimerExpiry =>
    change execStallTimerExpiry s = .next t at e
    unfold execStallTimerExpiry at e
    refine mapLaw_event e (fun u hu => ?_) hs
    split
    · exact keepsMap_endRun true (keepsMap_failRun _ _) u hu
    · exact hu
  | searchDone =>
    change execSearchDone s = .next t at e
    unfold execSearchDone at e
    exact mapLaw_event e keepsMap_searchEnds hs
  | frameDue z =>
    change execFrameDue z s = .next t at e
    unfold execFrameDue at e
    exact mapLaw_event e (keepsMap_of_sfm fun u => frameDue_sfm u z) hs
  | lineFallsFree =>
    change execLineFallsFree s = .next t at e
    unfold execLineFallsFree at e
    exact mapLaw_event e (keepsMap_of_sfm lineFree_sfm) hs
  | shock => exact mapLaw_frameEvent e (keepsMap_of_sfm fun u => skipMark_sfm u .shock) hs
  | focusLost => exact mapLaw_frameEvent e (keepsMap_of_sfm takeFocusLost_sfm) hs
  | focusBack => exact mapLaw_frameEvent e (keepsMap_of_sfm takeFocusBack_sfm) hs
  | trayHold => exact mapLaw_frameEvent e (keepsMap_of_sfm takeTrayHold_sfm) hs
  | trayResume => exact mapLaw_frameEvent e (keepsMap_of_sfm takeTrayResume_sfm) hs
  | discOut => exact mapLaw_frameEvent e (keepsMap_of_sfm takeDiscOut_sfm) hs
  | discIn => exact mapLaw_frameEvent e (keepsMap_of_sfm fun u => discReport_sfm u _ _) hs
  | runRefused id => exact mapLaw_frameEvent e (keepsMap_runRefused id) hs
  | unknownMark _ => exact mapLaw_frameEvent e (fun _ hu => hu) hs
  | holdTimerExpiry =>
    change execHoldTimerExpiry s = .next t at e
    unfold execHoldTimerExpiry at e
    refine mapLaw_event e (fun u hu => ?_) hs
    split
    · exact mapLaw_holdExpires u
    · exact hu
  | controlFrame payload => exact mapLaw_frameEvent e (keepsMap_of_sfm fun u => enqueueControl_sfm u payload) hs
  | tableOpen len => exact mapLaw_carryOut e (keepsMap_of_sfm openTable_sfm) hs
  | trackEntry len track start kind => exact mapLaw_carryOut e (keepsMap_of_sfm fun u => addTrack_sfm u _ _ _) hs
  | tableClose len count leadOut => exact mapLaw_carryOut e (keepsMap_closeTable _ _) hs
  | policyLoad len state row => exact mapLaw_carryOut e (keepsMap_loadPolicy _ _) hs
  | zoneSetup len zone enable priority target low resume critical fade =>
    exact mapLaw_carryOutZone e (fun z u => setupZone_sfm u z _ _ _ _ _ _ _) hs
  | mechanismSetup len first next hold => exact mapLaw_carryOut e (fun _ hu => hu) hs
  | reportSetup len levels threshold => exact mapLaw_carryOut e (fun _ hu => hu) hs
  | statusQuery len => exact mapLaw_carryOut e (keepsMap_of_sfm fun u => placeReport_sfm u _) hs
  | mapQuery len start => exact mapLaw_carryOut e (keepsMap_of_sfm fun u => placeReport_sfm u _) hs
  | softReset len => exact mapLaw_carryOut e (keepsMap_of_sfm softReset_sfm) hs
  | play len zone track offset => exact mapLaw_carryOutZone e (fun z u => playback_sfm (playTests_sfm u z _ _)) hs
  | pause len zone => exact mapLaw_carryOutZone e (fun z u => playback_sfm (pauseZone_sfm u z)) hs
  | resume len zone => exact mapLaw_carryOutZone e (fun z u => playback_sfm (resumeZone_sfm u z)) hs
  | stop len zone => exact mapLaw_carryOutZone e (fun z u => playback_sfm (stopZone_sfm u z)) hs
  | next len zone => exact mapLaw_carryOutZone e (fun z u => playback_sfm (nextTrack_sfm u z)) hs
  | previous len zone => exact mapLaw_carryOutZone e (fun z u => playback_sfm (previousTrack_sfm u z)) hs
  | locate len zone offset => exact mapLaw_carryOutZone e (fun z u => playback_sfm (locate_sfm u z _)) hs
  | programAppend len zone track => exact mapLaw_carryOutZone e (fun z u => appendTrack_sfm u z _) hs
  | programRemove len zone position => exact mapLaw_carryOutZone e (fun z u => removeTrack_sfm u z _) hs
  | programClear len zone => exact mapLaw_carryOutZone e (fun z u => clearProgram_sfm u z) hs
  | repeatMode len zone mode => exact mapLaw_carryOutZone e (fun z u => setRepeat_sfm u z _) hs
  | intakeCharacter c =>
    change execIntakeCharacter c s = .next t at e
    unfold execIntakeCharacter at e
    exact mapLaw_event e (keepsMap_takeCharacter c) hs
  | unknownCommandCode len code =>
    change execUnknownCommandCode len code s = .next t at e
    unfold execUnknownCommandCode at e
    exact mapLaw_cmiCarry e (keepsMap_of_sfm fun u => refuse_sfm u _ _) hs

/-- Settles O57, command by command. -/
theorem stepKeepsMapLaw : Obligations.StepKeepsMapLaw := by
  unfold Obligations.StepKeepsMapLaw
  intro s t hs e
  unfold step at e
  split at e
  · cases e
    exact hs
  · rename_i c rest _
    exact mapLaw_exec (s := { s with pending := rest }) hs e

end Sys2Proof.Safety
end
